-- ==== Sys2Proof/Word.lean ====
section
/-! DEFINITION. The words of the two blocks: bytes, dimensions, the pixel count, the cache word, the
pixel port's word, and the colour and pixel values they stand for (spec 10_state R20, R35; 20_memory R60). -/

namespace Sys2Proof

/-- One unsigned channel, and one element of a byte stream (00_scope R8 `CHANNEL_W`; 20_memory R60). -/
abbrev Byte := BitVec 8

/-- A width or a height (00_scope R8 `DIM_W`). -/
abbrev Dim := BitVec 32

/-- The pixel counter `pix_left` (00_scope R8 `PIXCNT_W`; 10_state R23). -/
abbrev Count := BitVec 64

/-- The run counter (00_scope R8 `RUN_W`; 10_state R25, R39). -/
abbrev RunCount := BitVec 6

/-- A cache address (20_memory R61). -/
abbrev Slot := BitVec 6

/-- A cache word, r in bits 23:16, g in bits 15:8, b in bits 7:0 (20_memory R61). -/
abbrev CacheWord := BitVec 24

/-- An element of the pixel port, r in bits 31:24, g in 23:16, b in 15:8, a in 7:0 (20_memory R65). -/
abbrev PixelWord := BitVec 32

/-- The colour of a pixel: the part that is compared, hashed and encoded. -/
structure Rgb where
  r : Byte
  g : Byte
  b : Byte
  deriving DecidableEq, Repr

/-- A pixel, "4 unsigned 8-bit channels (r, g, b, a)" (00_scope glossary). -/
structure Pixel extends Rgb where
  a : Byte
  deriving DecidableEq, Repr

end Sys2Proof
end

