-- ==== Sys2Proof/Config.lean ====
section
/-! DEFINITION. The parameters of the hardware that the spec fixes as sizes (00_scope R8). The tag
constants and biases stand with the encodings in Decode.lean, the coefficients of the hash with the
hash. The one open parameter, DELTA_WRAP, is an argument of the model: the field `deltaWrap` of State
(log entry 3). -/

namespace Sys2Proof.Config

/-- `CACHE_SLOTS` (00_scope R8). -/
def cacheSlots : Nat := 64

/-- `RUN_MAX`, the longest run one RUN operation carries (00_scope R8). -/
def runMax : Nat := 62

/-- `HDR_LEN`, the bytes of the header (00_scope R8). -/
def headerLength : Nat := 14

/-- The bytes of the magic, the header's first four (30_encoding R91). -/
def magicLength : Nat := 4

/-- `END_LEN`, the bytes of the end marker (00_scope R8). -/
def endLength : Nat := 8

end Sys2Proof.Config
end

