-- ==== Sys2Proof/Syntax.lean ====
section
/-! DEFINITION. The operations of the stream and its framing, one constructor per row of
spec/opcode_table.json, with the operands of the listing notation (spec 30_encoding R104). -/

namespace Sys2Proof

/-- One element of a stream. The encoder issues it, the decoder executes it. -/
inductive Instr where
  /-- HEADER w, h, c, s: the 14 header bytes (30_encoding R91). -/
  | header (width height : Dim) (channels colorspace : Byte)
  /-- INDEX i: the colour in cache slot i (30_encoding R94). -/
  | index (slot : Slot)
  /-- DIFF dr, dg, db: signed channel deltas, each in -2..1 (30_encoding R95). -/
  | diff (dr dg db : Int)
  /-- LUMA dg, drg, dbg: the green delta in -32..31, the red and blue deltas relative to it in -8..7
  (30_encoding R96). -/
  | luma (dg drg dbg : Int)
  /-- RUN n: the previous colour n times, n in 1..62; the byte carries n - 1 (30_encoding R97). -/
  | run (length : Nat)
  /-- RGB r, g, b: the three channels themselves (30_encoding R98). -/
  | rgb (r g b : Byte)
  /-- RESERVED_FF: the reserved tag FF (30_encoding R101). -/
  | reservedFf
  /-- END: the 8 end-marker bytes (30_encoding R92). -/
  | endMarker
  deriving DecidableEq, Repr

end Sys2Proof
end

