-- ==== Sys2Proof/WellFormed.lean ====
section
/-! DEFINITION. Which operations have an encoding: the operand ranges of spec 30_encoding R104. -/

namespace Sys2Proof

/-- `d` lies in the closed interval from `lo` to `hi`. -/
def inRange (lo hi d : Int) : Bool := decide (lo ≤ d) && decide (d ≤ hi)

/-- The operand ranges of the listing notation (30_encoding R104). An operand that its type already
bounds (a slot, a byte, a dimension) needs no check. -/
def Instr.wf : Instr → Bool
  | .header _ _ _ _ => true
  | .index _ => true
  | .diff dr dg db => inRange (-2) 1 dr && inRange (-2) 1 dg && inRange (-2) 1 db
  | .luma dg drg dbg => inRange (-32) 31 dg && inRange (-8) 7 drg && inRange (-8) 7 dbg
  | .run n => decide (1 ≤ n) && decide (n ≤ Config.runMax)
  | .rgb _ _ _ => true
  | .reservedFf => true
  | .endMarker => true

end Sys2Proof
end

