-- ==== Sys2Proof/Decode.lean ====
section
/-! DEFINITION. The wire format: the decoder from bytes to operations, total and rejecting by name, then
the encoder from operations to bytes, both from the tables of spec/30_encoding.md, and the reading of an
opcode-table row as bytes. -/

namespace Sys2Proof

/-! ### Constants of the wire format (00_scope R8; 30_encoding R91 to R99) -/

/-- `TAG_RGB`, PRESUMED by the spec's decision D8 (log entry 20). -/
def tagRgb : Byte := 0xFE

/-- The reserved tag (30_encoding R101). -/
def tagReserved : Byte := 0xFF

/-- `BIAS_DIFF` (30_encoding R99). -/
def biasDiff : Int := 2

/-- `BIAS_LUMA_G` (30_encoding R99). -/
def biasLumaG : Int := 32

/-- `BIAS_LUMA_RB` (30_encoding R99). -/
def biasLumaRB : Int := 8

/-- ASCII "qoif" (30_encoding R91; log entry 20). -/
def magicBytes : List Byte := [0x71, 0x6F, 0x69, 0x66]

/-- The end marker (30_encoding R92). -/
def endMarkerBytes : List Byte := [0, 0, 0, 0, 0, 0, 0, 1]

/-! ### Bit fields and byte order -/

/-- Four stream bytes as a big-endian integer, the first one most significant (20_memory R64). -/
def ofBigEndian (b0 b1 b2 b3 : Byte) : Dim := (b0 ++ b1 ++ b2 ++ b3 : BitVec (8 + 8 + 8 + 8))

/-- A 32-bit integer as four stream bytes, most significant first (20_memory R64). -/
def toBigEndian (w : Dim) : List Byte :=
  [w.extractLsb' 24 8, w.extractLsb' 16 8, w.extractLsb' 8 8, w.extractLsb' 0 8]

/-- A field is read as unsigned and then has its bias subtracted (30_encoding R99). -/
def unbiased {n : Nat} (bias : Int) (field : BitVec n) : Int := (field.toNat : Int) - bias

/-- A signed delta plus its bias, kept to the field's low bits (30_encoding R99; 43 R209). -/
def biased (n : Nat) (bias d : Int) : BitVec n := BitVec.ofInt n (d + bias)

/-! ### Decoder -/

/-- Where in a stream the next bytes stand. The kind of element is known from its position: the end
marker "cannot be told from operations by its bytes" (30_encoding R92). -/
inductive Position where
  /-- The first byte of a stream: the whole header follows. -/
  | start
  /-- After the magic: the header's last ten bytes follow (45 R243). -/
  | afterMagic
  /-- In the operation stream: a tag byte follows. -/
  | operation
  /-- After the last operation: the end marker follows. -/
  | trailer
  deriving DecidableEq, Repr

/-- Why bytes are no element of the stream. -/
inductive DecodeError where
  /-- More bytes are needed than there are (45 R252). -/
  | truncated
  /-- The first four bytes are not "qoif" (45 R242). -/
  | badMagic
  /-- The eight bytes of the trailer are not the end marker (45 R250). -/
  | badEndMarker
  deriving DecidableEq, Repr

/-- The MAGIC check: four bytes are taken and then compared (45 R242). Answers the bytes that follow. -/
def decodeMagic : List Byte → Except DecodeError (List Byte)
  | m0 :: m1 :: m2 :: m3 :: rest =>
    if [m0, m1, m2, m3] = magicBytes then .ok rest else .error .badMagic
  | _ => .error .truncated

/-- The header's ten bytes after the magic (45 R243). -/
def decodeHeaderFields : List Byte → Except DecodeError (Instr × List Byte)
  | w0 :: w1 :: w2 :: w3 :: h0 :: h1 :: h2 :: h3 :: c :: s :: rest =>
    .ok (.header (ofBigEndian w0 w1 w2 w3) (ofBigEndian h0 h1 h2 h3) c s, rest)
  | _ => .error .truncated

/-- Tag classification and field extraction (45 R247, R248): the two whole-byte tags come before the
two-bit test. -/
def decodeOperation : List Byte → Except DecodeError (Instr × List Byte)
  | [] => .error .truncated
  | t :: rest =>
    if t = tagRgb then
      match rest with
      | r :: g :: b :: rest' => .ok (.rgb r g b, rest')
      | _ => .error .truncated
    else if t = tagReserved then .ok (.reservedFf, rest)
    else if t.extractLsb' 6 2 = 0b11#2 then .ok (.run ((t.extractLsb' 0 6).toNat + 1), rest)
    else if t.extractLsb' 6 2 = 0b00#2 then .ok (.index (t.extractLsb' 0 6), rest)
    else if t.extractLsb' 6 2 = 0b01#2 then
      .ok (.diff (unbiased biasDiff (t.extractLsb' 4 2)) (unbiased biasDiff (t.extractLsb' 2 2))
        (unbiased biasDiff (t.extractLsb' 0 2)), rest)
    else
      match rest with
      | u :: rest' =>
        .ok (.luma (unbiased biasLumaG (t.extractLsb' 0 6)) (unbiased biasLumaRB (u.extractLsb' 4 4))
          (unbiased biasLumaRB (u.extractLsb' 0 4)), rest')
      | [] => .error .truncated

/-- The end-marker check: all eight bytes are taken and then compared (45 R250). -/
def decodeTrailer : List Byte → Except DecodeError (Instr × List Byte)
  | e0 :: e1 :: e2 :: e3 :: e4 :: e5 :: e6 :: e7 :: rest =>
    if [e0, e1, e2, e3, e4, e5, e6, e7] = endMarkerBytes then .ok (.endMarker, rest)
    else .error .badEndMarker
  | _ => .error .truncated

/-- The element that the bytes at a position of the stream hold, and the bytes after it. -/
def decode : Position → List Byte → Except DecodeError (Instr × List Byte)
  | .start, bs =>
    match decodeMagic bs with
    | .ok rest => decodeHeaderFields rest
    | .error e => .error e
  | .afterMagic, bs => decodeHeaderFields bs
  | .operation, bs => decodeOperation bs
  | .trailer, bs => decodeTrailer bs

/-! ### Encoder -/

/-- The position at which an element stands in a stream (30_encoding R90). -/
def Instr.position : Instr → Position
  | .header _ _ _ _ => .start
  | .index _ | .diff _ _ _ | .luma _ _ _ | .run _ | .rgb _ _ _ | .reservedFf => .operation
  | .endMarker => .trailer

/-- How many bytes an element has (30_encoding R93, R91, R92). -/
def Instr.length : Instr → Nat
  | .header _ _ _ _ => Config.headerLength
  | .index _ | .diff _ _ _ | .run _ | .reservedFf => 1
  | .luma _ _ _ => 2
  | .rgb _ _ _ => 4
  | .endMarker => Config.endLength

/-- The bytes of an element, in stream order (30_encoding R91, R92, R94 to R98, R101). -/
def encode : Instr → List Byte
  | .header w h c s => magicBytes ++ toBigEndian w ++ toBigEndian h ++ [c, s]
  | .index i => [(0b00#2 ++ i : BitVec (2 + 6))]
  | .diff dr dg db =>
    [(0b01#2 ++ biased 2 biasDiff dr ++ biased 2 biasDiff dg ++ biased 2 biasDiff db :
      BitVec (2 + 2 + 2 + 2))]
  | .luma dg drg dbg =>
    [(0b10#2 ++ biased 6 biasLumaG dg : BitVec (2 + 6)),
      (biased 4 biasLumaRB drg ++ biased 4 biasLumaRB dbg : BitVec (4 + 4))]
  | .run n => [(0b11#2 ++ BitVec.ofNat 6 (n - 1) : BitVec (2 + 6))]
  | .rgb r g b => [tagRgb, r, g, b]
  | .reservedFf => [tagReserved]
  | .endMarker => endMarkerBytes

/-! ### The opcode table's words as bytes -/

/-- The `n` low bytes of a number, least significant first. -/
def littleBytes : Nat → Nat → List Byte
  | 0, _ => []
  | n + 1, w => BitVec.ofNat 8 w :: littleBytes n (w / 256)

/-- The `n` low bytes of a number, most significant first. -/
def bigBytes (n w : Nat) : List Byte := (littleBytes n w).reverse

/-- The header row's words: the table reads the magic as one 32-bit number with byte 0 most significant
("stream bytes 0 to 3, byte 0 most significant"), so its words are big-endian 32-bit words, the last two
bytes one 16-bit word (log entry 12). -/
def headerWordBytes (w : Nat) : List Byte :=
  bigBytes 4 w ++ bigBytes 4 (w / 2 ^ 32) ++ bigBytes 4 (w / 2 ^ 64) ++ bigBytes 2 (w / 2 ^ 96)

/-- The magic as the opcode table writes it, HEADER's `match`. -/
def magicNumber : Nat := 0x716F6966

/-- Where in a stream an instruction with `nbits` bits and the bits `w` stands, and its bytes. The
HEADER row begins with the magic as one number, the END row has 64 bits, every other row is an operation
of at most four bytes whose byte k is bits 8k+7..8k; bits above `nbits` are 0 (log entry 12). -/
def tableBytes (nbits w : Nat) : Position × List Byte :=
  let v := w % 2 ^ nbits
  if 32 ≤ nbits ∧ v % 2 ^ 32 = magicNumber then (.start, headerWordBytes v)
  else if 64 < nbits then (.start, littleBytes Config.headerLength v)
  else if 32 < nbits then
    if bigBytes Config.endLength v = endMarkerBytes then (.trailer, bigBytes Config.endLength v)
    else (.trailer, littleBytes Config.endLength v)
  else (.operation, littleBytes 4 v)

/-- The instruction the decoder reads from an instruction of the opcode table whose bits are `w`. -/
def decodeTableWord (nbits w : Nat) : Option Instr :=
  match decode (tableBytes nbits w).1 (tableBytes nbits w).2 with
  | .ok (i, _) => some i
  | .error _ => none

end Sys2Proof
end

