-- ==== Sys2Proof/Machine/State.lean ====
section
/-! DEFINITION. The state of one qoi_encoder and one qoi_decoder (spec 10_state R20, R35), what the
environment offers and has taken at their ports (40 R129, 45 R239), the reasons a step can stop, and the
state after hardware reset (10_state R46, 70 R340). -/

namespace Sys2Proof.Machine

/-- The two blocks (00_scope R2). -/
inductive Block where
  | encoder
  | decoder
  deriving DecidableEq, Repr

/-- The encoder's `phase` (10_state R22). -/
inductive EncPhase where
  | idle
  | header
  | pixels
  | trailer
  deriving DecidableEq, Repr

/-- The decoder's `phase` (10_state R37). -/
inductive DecPhase where
  | idle
  | magic
  | header
  | pixels
  | trailer
  deriving DecidableEq, Repr

/-- The four values of a header: the encoder's `cfg` registers (10_state R21), the decoder's `hdr`
registers (10_state R36). -/
structure Header where
  width : Dim
  height : Dim
  channels : Byte
  colorspace : Byte
  deriving DecidableEq, Repr

/-- The 64 words of a history cache as (slot, word) pairs in rising order of slots; a slot that is not
listed holds the word 0, the colour (0, 0, 0) (20_memory R61, R63; log entry 2). -/
abbrev Memory := List (Nat × CacheWord)

/-- The canonical form above a lower bound: slots strictly rising from `lo` on, none outside the cache,
none listed with the word an unlisted slot holds. -/
def Memory.wfFrom (lo : Nat) : Memory → Bool
  | [] => true
  | (slot, w) :: m =>
    decide (lo ≤ slot) && decide (slot < Config.cacheSlots) && decide (w ≠ 0) &&
      Memory.wfFrom (slot + 1) m

/-- The canonical form of a cache: equal caches are equal lists. -/
def Memory.wf (m : Memory) : Bool := Memory.wfFrom 0 m

/-- The registers of `qoi_encoder`, "and nothing else" (10_state R20). -/
structure Encoder where
  cfg : Header
  phase : EncPhase
  pixLeft : Count
  prev : Pixel
  run : RunCount
  cache : Memory
  done : Bool
  ok : Bool
  deriving DecidableEq, Repr

/-- The registers of `qoi_decoder`, "and nothing else" (10_state R35). -/
structure Decoder where
  phase : DecPhase
  hdr : Header
  hdrValid : Bool
  pixLeft : Count
  prev : Pixel
  run : RunCount
  cache : Memory
  done : Bool
  valid : Bool
  fault : BitVec 3
  deriving DecidableEq, Repr

/-- A byte on the encoder's output port with its `out_last` (40 R129). -/
structure OutByte where
  data : Byte
  last : Bool
  deriving DecidableEq, Repr

/-- A pixel on the decoder's output port: `px_data` (45 R239, R249), and the alpha that the pixel has, none
in a 3-channel image, whose pixels have three bytes (45 R249; 46 R276; 93 U15; log entry 15). -/
structure OutPixel where
  data : PixelWord
  alpha : Option Byte
  deriving DecidableEq, Repr

/-- One move of the environment, landing between two steps of the blocks (log entry 5). -/
inductive Input where
  /-- `rst` is 1 at a rising clock edge: both blocks (70 R340, R350). -/
  | reset
  /-- The encoder's `start` with the four `cfg_*` ports (40 R130, R139). -/
  | startEncoder (cfg : Header)
  /-- The decoder's `start` (45 R240). -/
  | startDecoder
  /-- The pixel source offers one more pixel. -/
  | offerPixel (w : PixelWord)
  /-- The byte source offers one more byte. -/
  | offerByte (b : Byte)
  /-- The level of `in_eos`: no byte follows those offered (45 R239, R252). -/
  | setEos (level : Bool)
  /-- The level of the encoder's `out_ready` (40 R129). -/
  | setByteSinkReady (level : Bool)
  /-- The level of the decoder's `px_ready` (45 R239). -/
  | setPixSinkReady (level : Bool)
  /-- The block whose steps the machine shows from here on (log entry 5). -/
  | select (block : Block)
  deriving DecidableEq, Repr

/-- Both blocks, their streams and the environment's pending moves. -/
structure State where
  /-- The encoder's registers. -/
  enc : Encoder
  /-- The decoder's registers. -/
  dec : Decoder
  /-- The pixels the pixel source offers, the next one first (20_memory R60). -/
  pixSource : List PixelWord
  /-- The bytes the byte sink has accepted, the first one first. -/
  byteSink : List OutByte
  /-- The encoder's `out_ready`. -/
  byteSinkReady : Bool
  /-- The bytes the byte source offers, the next one first. -/
  byteSource : List Byte
  /-- The decoder's `in_eos`, meaningful once the byte source's bytes are used up. -/
  eos : Bool
  /-- The pixels the pixel sink has taken, the first one first. -/
  pixSink : List OutPixel
  /-- The decoder's `px_ready`. -/
  pixSinkReady : Bool
  /-- The block whose step comes next when no input is pending (log entry 5). -/
  active : Block
  /-- The environment's pending moves, the next one first (log entry 5). -/
  inputs : List Input
  /-- The open parameter `DELTA_WRAP` (00_scope R8, 43 R200; log entry 3). No step writes it. -/
  deltaWrap : Bool
  deriving DecidableEq, Repr

/-- The fault codes a decoder records (60 R301). Raising one is a step that completes: the machine goes
on in phase IDLE. -/
inductive FaultCode where
  | none
  | badMagic
  | badEndMarker
  | truncated
  | reservedTag
  | badChannels
  deriving DecidableEq, Repr

/-- Why the machine stops. The decoder's own faults (60 R301) are no stops: they are registers. -/
inductive Fault where
  /-- Raised by every step and operation of a block that stands in phase PIXELS with `pix_left = 0`.
  The spec has no step there ("then `pix_left >= 1`", 40 R133, 45 R245) and no run from reset reaches
  it. Safe. -/
  | noPixelsLeft
  deriving DecidableEq, Repr

/-- Why a step or an operation has no meaning. -/
inductive Refusal where
  /-- Raised by an arm of exec that has no meaning yet. Safe. -/
  | notModelled (mnemonic : String)
  /-- Raised by an operation of the decoder outside the phase (or, for an operation that takes a tag,
  during the pending run) in which its rule enables it (45 R243, R245, R250). No step meets it. Safe. -/
  | notEnabled
  /-- Raised by an operation of the encoder that is not the one the encoder issues in this state (43 R204
  and the conditions of R183, R205 to R207; 40 R132, R137; RESERVED_FF always, 30 R103). No step meets
  it. Safe. -/
  | notSelected
  /-- Raised by the encoder's START with zero area or a channel count other than 3 or 4, to which the
  spec gives no meaning: "A model refuses such a START" (60 R316). Safe. -/
  | startPrecondition
  deriving DecidableEq, Repr

/-- A header that holds zeros (log entry 1). -/
def Header.zero : Header := { width := 0, height := 0, channels := 0, colorspace := 0 }

/-- A pixel that holds zeros (log entry 1). -/
def Pixel.zero : Pixel := { r := 0, g := 0, b := 0, a := 0 }

/-- The encoder after hardware reset (10_state R46): `phase`, `done` and `ok` are the spec's, every other
value is a DESIGN CHOICE (log entries 1 and 2). -/
def Encoder.reset : Encoder where
  cfg := Header.zero
  phase := .idle
  pixLeft := 0
  prev := Pixel.zero
  run := 0
  cache := []
  done := false
  ok := false

/-- The decoder after hardware reset (10_state R46): `phase`, `hdrValid`, `done`, `valid` and `fault` are
the spec's, every other value is a DESIGN CHOICE (log entries 1 and 2). -/
def Decoder.reset : Decoder where
  phase := .idle
  hdr := Header.zero
  hdrValid := false
  pixLeft := 0
  prev := Pixel.zero
  run := 0
  cache := []
  done := false
  valid := false
  fault := 0

/-- The machine right after hardware reset, nothing offered at its ports (log entry 4), `DELTA_WRAP` at
the spec's default 0 (00_scope R8; log entry 3). -/
def State.reset : State where
  enc := Encoder.reset
  dec := Decoder.reset
  pixSource := []
  byteSink := []
  byteSinkReady := true
  byteSource := []
  eos := false
  pixSink := []
  pixSinkReady := true
  active := .encoder
  inputs := []
  deltaWrap := false

end Sys2Proof.Machine
end

