-- ==== Sys2Proof/Machine/Operands.lean ====
section
/-! DEFINITION. The values the blocks compute from their operands: the words of the ports and of the
cache, the hash, the encoder's deltas and the decoder's sums (spec 20_memory R61, R65; 42 R180; 43 R200,
R201; 46 R273, R274, R278). -/

namespace Sys2Proof.Machine

/-- A colour as a cache word (20_memory R61). -/
def rgbWord (c : Rgb) : CacheWord := (c.r ++ c.g ++ c.b : BitVec (8 + 8 + 8))

/-- A cache word as a colour (20_memory R61). -/
def wordRgb (w : CacheWord) : Rgb :=
  { r := w.extractLsb' 16 8, g := w.extractLsb' 8 8, b := w.extractLsb' 0 8 }

/-- A pixel on a pixel port (20_memory R65). -/
def pixelWord (p : Pixel) : PixelWord := (p.r ++ p.g ++ p.b ++ p.a : BitVec (8 + 8 + 8 + 8))

/-- The colour on a pixel port (20_memory R65). -/
def wordPixelRgb (w : PixelWord) : Rgb :=
  { r := w.extractLsb' 24 8, g := w.extractLsb' 16 8, b := w.extractLsb' 8 8 }

/-- A pixel as the decoder hands it over: "(r,g,b) — and a, held constant, if channel count is 4", the port's
word carrying the a field either way (45 R249; 46 R276). -/
def outPixel (channels : Byte) (p : Pixel) : OutPixel :=
  { data := pixelWord p, alpha := if channels = 4 then some p.a else none }

/-- The bytes of a pixel the decoder handed over, three or four (45 R249). -/
def OutPixel.bytes (o : OutPixel) : List Byte :=
  [(wordPixelRgb o.data).r, (wordPixelRgb o.data).g, (wordPixelRgb o.data).b] ++ o.alpha.toList

/-- `read_pixel()`: the a field counts only with 4 channels (40 R134). -/
def readPixel (channels : Byte) (w : PixelWord) : Pixel :=
  { wordPixelRgb w with a := if channels = 4 then w.extractLsb' 0 8 else 255 }

/-- The hash of a colour, over the integers, with the constant alpha term 11 * 255 (42 R180). -/
def hashSlot (c : Rgb) : Slot :=
  BitVec.ofNat 6 ((3 * c.r.toNat + 5 * c.g.toNat + 7 * c.b.toNat + 11 * 255) % 64)

/-- The three channel deltas of a pixel against the previous one. -/
structure Deltas where
  dr : Int
  dg : Int
  db : Int
  deriving DecidableEq, Repr

/-- One channel's delta: the exact difference, or with `DELTA_WRAP` the difference modulo 256 as a
signed 8-bit value (43 R200). -/
def channelDelta (wrap : Bool) (c p : Byte) : Int :=
  if wrap then (c - p).toInt else (c.toNat : Int) - (p.toNat : Int)

/-- The delta unit (43 R200). -/
def deltas (wrap : Bool) (prev c : Rgb) : Deltas :=
  { dr := channelDelta wrap c.r prev.r, dg := channelDelta wrap c.g prev.g,
    db := channelDelta wrap c.b prev.b }

/-- The red delta relative to the green one, exact (43 R201). -/
def Deltas.drg (d : Deltas) : Int := d.dr - d.dg

/-- The blue delta relative to the green one, exact (43 R201). -/
def Deltas.dbg (d : Deltas) : Int := d.db - d.dg

/-- A channel plus a signed delta, modulo 256 (46 R278). -/
def addDelta (c : Byte) (d : Int) : Byte := BitVec.ofInt 8 ((c.toNat : Int) + d)

/-- The colour a DIFF describes (46 R273). -/
def diffColour (prev : Rgb) (dr dg db : Int) : Rgb :=
  { r := addDelta prev.r dr, g := addDelta prev.g dg, b := addDelta prev.b db }

/-- The colour a LUMA describes (46 R274). -/
def lumaColour (prev : Rgb) (dg drg dbg : Int) : Rgb :=
  { r := addDelta prev.r (dg + drg), g := addDelta prev.g dg, b := addDelta prev.b (dg + dbg) }

/-- The pixel count of an image, exact in 64 bits (40 R131, 45 R243, 43 R212). -/
def pixelCount (h : Header) : Count := h.width.setWidth 64 * h.height.setWidth 64

/-- The previous pixel at the start of a pass (40 R131, 45 R241). -/
def seed : Pixel := { r := 0, g := 0, b := 0, a := 255 }

/-- The register value of a fault (60 R301). -/
def FaultCode.code : FaultCode → BitVec 3
  | .none => 0
  | .badMagic => 1
  | .badEndMarker => 2
  | .truncated => 3
  | .reservedTag => 4
  | .badChannels => 5

end Sys2Proof.Machine
end

