-- ==== Sys2Proof/Machine/Flags.lean ====
section
/-! DEFINITION. The one-bit results of the blocks: comparisons and range tests inside a step, which are
no state (spec 10_state R27), the preconditions of START, and the outputs that are functions of the state. -/

namespace Sys2Proof.Machine

/-- `eq_prev`: equality in (r, g, b), alpha takes no part (41 R160). -/
def eqPrev (prev c : Rgb) : Bool := decide (c = prev)

/-- `is_last`, from the value of `pix_left` at the start of the step (40 R135). -/
def isLast (pixLeft : Count) : Bool := decide (pixLeft = 1)

/-- `run + 1` before it is written back, the 7-bit intermediate `n` (41 R161). -/
def runLength (run : RunCount) : Nat := run.toNat + 1

/-- The flush condition of a run that goes on (41 R162). -/
def flushes (run : RunCount) (pixLeft : Count) : Bool :=
  decide (runLength run = Config.runMax) || isLast pixLeft

/-- `fits_diff` (43 R202). -/
def fitsDiff (d : Deltas) : Bool := inRange (-2) 1 d.dr && inRange (-2) 1 d.dg && inRange (-2) 1 d.db

/-- `fits_luma` (43 R203). -/
def fitsLuma (d : Deltas) : Bool :=
  inRange (-32) 31 d.dg && inRange (-8) 7 d.drg && inRange (-8) 7 d.dbg

/-- The channel counts of the format (30 R91; 45 R244). -/
def channelsOk (channels : Byte) : Bool := decide (channels = 3) || decide (channels = 4)

/-- The preconditions of the encoder's START (60 R316). -/
def startOk (cfg : Header) : Bool := decide (pixelCount cfg ≠ 0) && channelsOk cfg.channels

/-- The encoder's output `busy` (10_state R20, 40 R129). -/
def Encoder.busy (e : Encoder) : Bool := decide (e.phase ≠ .idle)

/-- The decoder's output `busy` (45 R239). -/
def Decoder.busy (d : Decoder) : Bool := decide (d.phase ≠ .idle)

end Sys2Proof.Machine
end

