-- ==== Sys2Proof/Machine/Ops.lean ====
section
/-! DEFINITION. The named operations over the cache, the streams and the registers of both blocks, taking
a fault, START and hardware reset (spec 20_memory, 40, 45, 46, 60 R308, 70). Each one is a whole update
that the meanings and the sequencer are made of. -/

namespace Sys2Proof.Machine

/-! ### The cache RAM (20_memory R61 to R63) -/

/-- `CacheRead` on the list: an unlisted slot holds 0. -/
def readCell : Memory → Nat → CacheWord
  | [], _ => 0
  | (slot, w) :: m, i => if slot = i then w else readCell m i

/-- `CacheWrite` on the list, keeping the canonical form: writing 0 removes the entry. -/
def writeCell : Memory → Nat → CacheWord → Memory
  | [], i, v => if v = 0 then [] else [(i, v)]
  | (slot, w) :: m, i, v =>
    if i < slot then (if v = 0 then (slot, w) :: m else (i, v) :: (slot, w) :: m)
    else if i = slot then (if v = 0 then m else (i, v) :: m)
    else (slot, w) :: writeCell m i v

/-- The colour in a slot (42 R182, 46 R271). -/
def cacheRead (m : Memory) (i : Slot) : Rgb := wordRgb (readCell m i.toNat)

/-- Stores a colour in the slot its hash selects (42 R184, 46 R275). -/
def cacheStore (m : Memory) (c : Rgb) : Memory := writeCell m (hashSlot c).toNat (rgbWord c)

/-! ### The streams (20_memory R60, R70) -/

/-- `ByteOut` of bytes none of which ends the stream (43 R209, R211). -/
def sendBytes (bs : List Byte) (s : State) : State :=
  { s with byteSink := s.byteSink ++ bs.map (fun b => { data := b, last := false }) }

/-- The end marker on the output port, `out_last` with its final byte (40 R137, 43 R211). -/
def sendEndMarker (s : State) : State :=
  { s with byteSink := s.byteSink ++
      endMarkerBytes.dropLast.map (fun b => { data := b, last := false }) ++
      [{ data := 1, last := true }] }

/-- `ByteIn` of the next `n` bytes. -/
def takeBytes (n : Nat) (s : State) : State := { s with byteSource := s.byteSource.drop n }

/-- Takes every byte that is left. -/
def takeAllBytes (s : State) : State := { s with byteSource := [] }

/-! ### The encoder's registers -/

/-- The encoder's registers after START's writes (40 R130, R131). -/
def encoderStart (cfg : Header) (s : State) : State :=
  { s with enc :=
      { cfg := cfg, phase := .header, pixLeft := pixelCount cfg, prev := seed, run := 0, cache := [],
        done := false, ok := false } }

/-- Moves the encoder to another phase (10_state R22). -/
def setEncPhase (p : EncPhase) (s : State) : State := { s with enc := { s.enc with phase := p } }

/-- Writes the encoder's run counter (10_state R25). -/
def setEncRun (n : RunCount) (s : State) : State := { s with enc := { s.enc with run := n } }

/-- `run_terminate()`: a pending run is emitted before anything of the breaking pixel (41 R163). -/
def terminateRun (s : State) : State :=
  if s.enc.run = 0 then s else setEncRun 0 (sendBytes (encode (.run s.enc.run.toNat)) s)

/-- The encoder's store on a miss (42 R184). -/
def encStore (c : Rgb) (s : State) : State :=
  { s with enc := { s.enc with cache := cacheStore s.enc.cache c } }

/-- The end of every PIXEL step: the pixel is taken from the source, `prev` advances to it whichever
branch fired, `pix_left` counts down, and the last pixel moves the phase on (40 R133, R136). -/
def retirePixel (p : Pixel) (s : State) : State :=
  { s with
    pixSource := s.pixSource.tail
    enc := { s.enc with
      prev := p
      pixLeft := s.enc.pixLeft - 1
      phase := if isLast s.enc.pixLeft then .trailer else s.enc.phase } }

/-- The encoder's `done` and `ok` at the end of a pass (40 R137, R138). -/
def encoderDone (s : State) : State :=
  { s with enc := { s.enc with done := true, ok := true, phase := .idle } }

/-! ### The decoder's registers -/

/-- The decoder's registers after START's writes; `hdr` and `pix_left` are not written (45 R240,
R241). -/
def decoderStart (s : State) : State :=
  { s with dec := { s.dec with
      phase := .magic, prev := seed, run := 0, cache := [], done := false, valid := false, fault := 0,
      hdrValid := false } }

/-- Moves the decoder to another phase (10_state R37). -/
def setDecPhase (p : DecPhase) (s : State) : State := { s with dec := { s.dec with phase := p } }

/-- Writes the decoder's run counter (10_state R39). -/
def setDecRun (n : RunCount) (s : State) : State := { s with dec := { s.dec with run := n } }

/-- The decoder's store after DIFF, LUMA and RGB, unconditional (46 R275). -/
def decStore (c : Rgb) (s : State) : State :=
  { s with dec := { s.dec with cache := cacheStore s.dec.cache c } }

/-- The `hdr` registers and `hdr_valid` (45 R243). -/
def setHeader (h : Header) (s : State) : State := { s with dec := { s.dec with hdr := h, hdrValid := true } }

/-- The pixel count of the header and the phase it leads to: with zero area straight to the end-marker
check (45 R243, R254). -/
def enterPixels (h : Header) (s : State) : State :=
  { s with dec := { s.dec with
      pixLeft := pixelCount h
      phase := if pixelCount h = 0 then .trailer else .pixels } }

/-- The end of every PIXEL iteration: the colour goes out, with the constant alpha if the image has 4
channels, `prev` takes it, `pix_left` counts down, and at 0 the phase moves on (45 R245, R249; 46 R276). -/
def producePixel (c : Rgb) (s : State) : State :=
  { s with
    pixSink := s.pixSink ++ [outPixel s.dec.hdr.channels { c with a := s.dec.prev.a }]
    dec := { s.dec with
      prev := { c with a := s.dec.prev.a }
      pixLeft := s.dec.pixLeft - 1
      phase := if isLast s.dec.pixLeft then .trailer else s.dec.phase } }

/-- The decoder's report at the end of a pass (45 R250, R251). -/
def decoderDone (valid : Bool) (f : FaultCode) (s : State) : State :=
  { s with dec := { s.dec with valid := valid, fault := f.code, done := true, phase := .idle } }

/-- `raise <Fault>`, the entry of every fault but BAD_END_MARKER: "`fault <- code ; valid <- 0 ;
done <- 1 ; phase <- IDLE`" (60 R308). There is no return from a fault (60 R309): the next START begins
a new pass. -/
def raiseFault (f : FaultCode) (s : State) : State := decoderDone false f s

/-! ### Hardware reset (10_state R46; 70 R340, R350) -/

/-- Both blocks take the state after reset. The streams keep what was transferred. -/
def hardwareReset (s : State) : State := { s with enc := Encoder.reset, dec := Decoder.reset }

/-! ### The shapes of the operations -/

/-- The outcome type of the machine. -/
abbrev Result := Host.Outcome State Fault Refusal

/-- One decoder iteration that takes a tag (45 R245): enabled in PIXELS with no run pending. It takes
`n` bytes, runs the operation's own update and produces the colour `c`. -/
def decoderIteration (n : Nat) (update : State → State) (c : Rgb) (s : State) : Result :=
  if s.dec.phase = .pixels ∧ s.dec.run = 0 then
    if s.dec.pixLeft = 0 then .fault .noPixelsLeft
    else .next (producePixel c (update (takeBytes n s)))
  else .refused .notEnabled

/-- The literal forms of the decoder store the colour they produce (46 R275). -/
def decoderLiteral (n : Nat) (c : Rgb) (s : State) : Result := decoderIteration n (decStore c) c s

end Sys2Proof.Machine
end

