-- ==== Sys2Proof/Machine/Muxer.lean ====
section
/-! DEFINITION. The encoder's operation muxer: which operation a pixel is given, by the fixed priority
run, index, DIFF, LUMA, RGB (spec 43 R204), what the encoder issues next, and the shape of the encoder's
PIXEL steps. -/

namespace Sys2Proof.Machine

/-- Orders 3 to 5 of the muxer, `emit_literal` (43 R204 to R207). -/
def literalOf (wrap : Bool) (prev c : Rgb) : Instr :=
  if fitsDiff (deltas wrap prev c) then
    .diff (deltas wrap prev c).dr (deltas wrap prev c).dg (deltas wrap prev c).db
  else if fitsLuma (deltas wrap prev c) then
    .luma (deltas wrap prev c).dg (deltas wrap prev c).drg (deltas wrap prev c).dbg
  else .rgb c.r c.g c.b

/-- `hit` (42 R182). -/
def cacheHit (m : Memory) (c : Rgb) : Bool := decide (cacheRead m (hashSlot c) = c)

/-- The operation the muxer gives a pixel, nothing for a pixel that only extends a run (43 R204; 41
R161, R162). The RUN byte that a breaking pixel sends first is part of that pixel's step (41 R163). -/
def muxer (wrap : Bool) (e : Encoder) (c : Rgb) : Option Instr :=
  if eqPrev e.prev.toRgb c then
    if flushes e.run e.pixLeft then some (.run (runLength e.run)) else none
  else if cacheHit e.cache c then some (.index (hashSlot c))
  else some (literalOf wrap e.prev.toRgb c)

/-- The pixel the source offers, as `read_pixel()` sees it (40 R134). -/
def offeredPixel (s : State) : Option Pixel := s.pixSource.head?.map (readPixel s.enc.cfg.channels)

/-- What the encoder issues in its next step: the header, the operation of the offered pixel, or the end
marker (40 R132, R133, R137). -/
def issued (s : State) : Option Instr :=
  match s.enc.phase with
  | .idle => none
  | .header => some (.header s.enc.cfg.width s.enc.cfg.height s.enc.cfg.channels s.enc.cfg.colorspace)
  | .pixels => (offeredPixel s).bind (fun p => muxer s.deltaWrap s.enc p.toRgb)
  | .trailer => some .endMarker

/-- An encoder step that issues `i` for the offered pixel (40 R133), `update` being the operation's own
part. The operation is performed only when the muxer selects it. -/
def encoderOperation (i : Instr) (update : Pixel → State → State) (s : State) : Result :=
  match offeredPixel s with
  | none => .refused .notSelected
  | some p =>
    if issued s = some i then
      if s.enc.pixLeft = 0 then .fault .noPixelsLeft
      else .next (retirePixel p (update p s))
    else .refused .notSelected

/-- The encoder's part of INDEX: the pending run, then the operation; the cache is not written (42
R183). -/
def encoderIndex (i : Instr) (s : State) : Result :=
  encoderOperation i (fun _ t => sendBytes (encode i) (terminateRun t)) s

/-- The encoder's part of DIFF, LUMA and RGB: the pending run, the store of the miss, then the operation
(42 R184; 43 R205 to R207). -/
def encoderLiteral (i : Instr) (s : State) : Result :=
  encoderOperation i (fun p t => sendBytes (encode i) (encStore p.toRgb (terminateRun t))) s

/-- A framing step of the encoder, HEADER or END (40 R132, R137). -/
def encoderFraming (i : Instr) (update : State → State) (s : State) : Result :=
  if issued s = some i then .next (update s) else .refused .notSelected

end Sys2Proof.Machine
end

