-- ==== Sys2Proof/Machine/Framing.lean ====
section
/-! DEFINITION. HEADER and END in both blocks (spec 40 R132, R137; 45 R243, R244, R250). -/

namespace Sys2Proof.Machine

/-- HEADER in the decoder: the ten bytes after the magic fill the `hdr` registers; a channel count
other than 3 or 4 raises BAD_CHANNELS, and those writes stand (45 R243, R244; 60 R308). -/
def decoderHeader (h : Header) (s : State) : Result :=
  if s.dec.phase = .header then
    if channelsOk h.channels then
      .next (enterPixels h (setHeader h (takeBytes (Config.headerLength - Config.magicLength) s)))
    else
      .next (raiseFault .badChannels
        (setHeader h (takeBytes (Config.headerLength - Config.magicLength) s)))
  else .refused .notEnabled

/-- HEADER: the encoder sends the 14 bytes (40 R132), the decoder parses them (45 R243). -/
def execHeader (width height : Dim) (channels colorspace : Byte) (s : State) : Result :=
  match s.active with
  | .encoder =>
    encoderFraming (.header width height channels colorspace)
      (fun t => setEncPhase .pixels (sendBytes (encode (.header width height channels colorspace)) t)) s
  | .decoder =>
    decoderHeader { width := width, height := height, channels := channels, colorspace := colorspace } s

/-- END in the decoder: the end marker matched (45 R250). -/
def decoderEnd (s : State) : Result :=
  if s.dec.phase = .trailer then .next (decoderDone true .none (takeBytes Config.endLength s))
  else .refused .notEnabled

/-- END: the encoder sends the end marker and is done (40 R137, R138), the decoder's pass is valid (45
R250, R251). -/
def execEndMarker (s : State) : Result :=
  match s.active with
  | .encoder => encoderFraming .endMarker (fun t => encoderDone (sendEndMarker t)) s
  | .decoder => decoderEnd s

end Sys2Proof.Machine
end

