-- ==== Sys2Proof/Machine/Index.lean ====
section
/-! DEFINITION. INDEX in both blocks (spec 42 R183; 46 R271). -/

namespace Sys2Proof.Machine

/-- INDEX: the encoder sends the slot of a hit (42 R183), the decoder adopts the slot's colour (46
R271). Neither writes its cache. -/
def execIndex (slot : Slot) (s : State) : Result :=
  match s.active with
  | .encoder => encoderIndex (.index slot) s
  | .decoder => decoderIteration 1 id (cacheRead s.dec.cache slot) s

end Sys2Proof.Machine
end

