-- ==== Sys2Proof/Machine/Literal.lean ====
section
/-! DEFINITION. DIFF, LUMA and RGB in both blocks (spec 43 R205 to R207; 46 R272 to R275). -/

namespace Sys2Proof.Machine

/-- DIFF (43 R205; 46 R273). -/
def execDiff (dr dg db : Int) (s : State) : Result :=
  match s.active with
  | .encoder => encoderLiteral (.diff dr dg db) s
  | .decoder => decoderLiteral 1 (diffColour s.dec.prev.toRgb dr dg db) s

/-- LUMA (43 R206; 46 R274). -/
def execLuma (dg drg dbg : Int) (s : State) : Result :=
  match s.active with
  | .encoder => encoderLiteral (.luma dg drg dbg) s
  | .decoder => decoderLiteral 2 (lumaColour s.dec.prev.toRgb dg drg dbg) s

/-- RGB (43 R207; 46 R272). -/
def execRgb (r g b : Byte) (s : State) : Result :=
  match s.active with
  | .encoder => encoderLiteral (.rgb r g b) s
  | .decoder => decoderLiteral 4 { r := r, g := g, b := b } s

end Sys2Proof.Machine
end

