-- ==== Sys2Proof/Machine/Reserved.lean ====
section
/-! DEFINITION. The reserved tag FF (spec 30 R101; 46 R277; 60 R305). -/

namespace Sys2Proof.Machine

/-- The reserved tag in the decoder: the byte is taken, the fault RESERVED_TAG is raised and no pixel is
produced (46 R277; 60 R305, R308). -/
def decoderReserved (s : State) : Result :=
  if s.dec.phase = .pixels ∧ s.dec.run = 0 then
    if s.dec.pixLeft = 0 then .fault .noPixelsLeft
    else .next (raiseFault .reservedTag (takeBytes 1 s))
  else .refused .notEnabled

/-- RESERVED_FF: the decoder raises RESERVED_TAG (46 R277); the encoder never emits it (30 R103). -/
def execReservedFf (s : State) : Result :=
  match s.active with
  | .encoder => .refused .notSelected
  | .decoder => decoderReserved s

end Sys2Proof.Machine
end

