-- ==== Sys2Proof/Machine/Run.lean ====
section
/-! DEFINITION. RUN in both blocks (spec 41 R161, R162; 46 R270). -/

namespace Sys2Proof.Machine

/-- RUN: the encoder flushes a run that reached 62 or the last pixel (41 R162), the decoder produces the
previous colour and keeps `n - 1` iterations pending (46 R270). -/
def execRun (n : Nat) (s : State) : Result :=
  match s.active with
  | .encoder => encoderOperation (.run n) (fun _ t => setEncRun 0 (sendBytes (encode (.run n)) t)) s
  | .decoder => decoderIteration 1 (setDecRun (BitVec.ofNat 6 (n - 1))) s.dec.prev.toRgb s

end Sys2Proof.Machine
end

