-- ==== Sys2Proof/Machine/Sequencer.lean ====
section
/-! DEFINITION. The sequencing around exec: the environment's moves, the steps of a block that carry no
operation, fetching, waiting, and where an opcode-table word is placed (spec 10_state R22, R37; 40 R133;
45 R242 to R252; 60 R315; 70 R340). -/

namespace Sys2Proof.Machine

/-! ### The encoder -/

/-- A pixel equal to the previous one that flushes nothing: the run counter is advanced and the pixel is
consumed with no byte sent (41 R161, R162). Without an offered pixel, and in IDLE, the encoder waits
(60 R315). -/
def extendRun (s : State) : Result :=
  if s.enc.phase = .pixels then
    match offeredPixel s with
    | none => .next s
    | some p =>
      if s.enc.pixLeft = 0 then .fault .noPixelsLeft
      else .next (retirePixel p (setEncRun (BitVec.ofNat 6 (runLength s.enc.run)) s))
  else .next s

/-- The encoder's enabled step: what it issues, once the sink takes bytes (60 R315 (b)), or a step that
issues nothing. -/
def encoderStep (s : State) : Result :=
  match issued s with
  | some i => if s.byteSinkReady then exec i s else .next s
  | none => extendRun s

/-! ### The decoder -/

/-- The position of the decoder's next element (10_state R37); nothing is fetched in IDLE and in
MAGIC. -/
def fetchPosition : DecPhase → Option Position
  | .idle => none
  | .magic => none
  | .header => some .afterMagic
  | .pixels => some .operation
  | .trailer => some .trailer

/-- What the decoder does with bytes that are no element. `TRUNCATED` needs the end of the stream, and
every byte that was left has been taken; without it the decoder waits (45 R252; 60 R304, R315). The magic
and the end marker are compared after four and eight bytes (45 R242, R250). -/
def fetchFault : DecodeError → State → Result
  | .truncated, s => if s.eos then .next (raiseFault .truncated (takeAllBytes s)) else .next s
  | .badMagic, s => .next (raiseFault .badMagic (takeBytes Config.magicLength s))
  | .badEndMarker, s => .next (decoderDone false .badEndMarker (takeBytes Config.endLength s))

/-- The MAGIC step (45 R242). -/
def magicStep (s : State) : Result :=
  match decodeMagic s.byteSource with
  | .ok _ => .next (setDecPhase .header (takeBytes Config.magicLength s))
  | .error e => fetchFault e s

/-- A run-pending iteration: no byte is read, the previous colour goes out again (45 R246). -/
def runPending (s : State) : State := producePixel s.dec.prev.toRgb (setDecRun (s.dec.run - 1) s)

/-- Whether an operation hands a pixel to the pixel sink. -/
def producesPixel : Instr → Bool
  | .header _ _ _ _ | .reservedFf | .endMarker => false
  | .index _ | .diff _ _ _ | .luma _ _ _ | .run _ | .rgb _ _ _ => true

/-- Fetches the next element and executes it; an operation that produces a pixel waits for the pixel sink
(60 R315 (d)). -/
def fetchAndExec (p : Position) (s : State) : Result :=
  match decode p s.byteSource with
  | .ok (i, _) => if producesPixel i && !s.pixSinkReady then .next s else exec i s
  | .error e => fetchFault e s

/-- The decoder's step in PIXELS (45 R245). -/
def pixelIteration (s : State) : Result :=
  if s.dec.pixLeft = 0 then .fault .noPixelsLeft
  else if s.dec.run = 0 then fetchAndExec .operation s
  else if s.pixSinkReady then .next (runPending s)
  else .next s

/-- The decoder's enabled step, by phase (10_state R37). -/
def decoderStep (s : State) : Result :=
  match s.dec.phase with
  | .idle => .next s
  | .magic => magicStep s
  | .header => fetchAndExec .afterMagic s
  | .pixels => pixelIteration s
  | .trailer => fetchAndExec .trailer s

/-! ### The environment and the machine -/

/-- START of the encoder: sampled only in IDLE, ignored otherwise (40 R130, R139); refused when it breaks
its preconditions (60 R316). -/
def startEncoder (cfg : Header) (s : State) : Result :=
  if s.enc.phase = .idle then
    if startOk cfg then .next (encoderStart cfg s) else .refused .startPrecondition
  else .next s

/-- START of the decoder: sampled only in IDLE, ignored otherwise (45 R240). -/
def startDecoder (s : State) : Result :=
  if s.dec.phase = .idle then .next (decoderStart s) else .next s

/-- One move of the environment. -/
def applyInput : Input → State → Result
  | .reset, s => .next (hardwareReset s)
  | .startEncoder cfg, s => startEncoder cfg s
  | .startDecoder, s => startDecoder s
  | .offerPixel w, s => .next { s with pixSource := s.pixSource ++ [w] }
  | .offerByte b, s => .next { s with byteSource := s.byteSource ++ [b] }
  | .setEos level, s => .next { s with eos := level }
  | .setByteSinkReady level, s => .next { s with byteSinkReady := level }
  | .setPixSinkReady level, s => .next { s with pixSinkReady := level }
  | .select block, s => .next { s with active := block }

/-- The step of the block that comes next. -/
def blockStep (s : State) : Result :=
  match s.active with
  | .encoder => encoderStep s
  | .decoder => decoderStep s

/-- A pending move of the environment lands first; with none pending the block takes its step. -/
def machineStep (s : State) : Result :=
  match s.inputs with
  | e :: rest => applyInput e { s with inputs := rest }
  | [] => blockStep s

/-! ### Placing an instruction of the opcode table -/

/-- The decoder's phase in which the next step fetches at a position: a header's fields are fetched after
its magic, which a step of its own has checked (log entry 8). -/
def placedPhase : Position → DecPhase
  | .start => .header
  | .afterMagic => .header
  | .operation => .pixels
  | .trailer => .trailer

/-- The bytes the step fetches at a position, given the element's bytes from its first one on. -/
def placedBytes : Position → List Byte → List Byte
  | .start, bs => bs.drop Config.magicLength
  | .afterMagic, bs => bs
  | .operation, bs => bs
  | .trailer, bs => bs

/-- The bytes at the head of the byte source, over as many bytes of it as they are, and the decoder ready
to fetch them: no input pending, no run pending, the pixel sink ready, at least one pixel to come. -/
def placeBytes (p : Position) (bs : List Byte) (s : State) : State :=
  { s with
    byteSource := placedBytes p bs ++ s.byteSource.drop (placedBytes p bs).length
    pixSinkReady := true
    active := .decoder
    inputs := []
    dec := { s.dec with
      phase := placedPhase p
      run := 0
      pixLeft := if s.dec.pixLeft = 0 then 1 else s.dec.pixLeft } }

end Sys2Proof.Machine
end

