-- ==== Sys2Proof/Machine/Step.lean ====
section
/-! DEFINITION. One step of the machine, and an instruction of the opcode table placed where the step
fetches. -/

namespace Sys2Proof.Machine

/-- One architectural step (spec 00_scope R5), or one move of the environment. -/
def step (s : State) : Host.Outcome State Fault Refusal := machineStep s

/-- The state with the instruction whose `nbits` bits are `w` (as the opcode table numbers them) placed
so that the next step fetches and runs it (log entry 8). -/
def State.withFetchWord (s : State) (nbits w : Nat) : State :=
  placeBytes (tableBytes nbits w).1 (tableBytes nbits w).2 s

end Sys2Proof.Machine
end

