-- ==== Sys2Proof/Safety.lean ====
section
/-! DEFINITION. What claims are stated in: the invariant of both blocks, the encoder's pixel step written
again straight from its pseudocode (spec 40 R133), and the relation between runs that differ in alpha only
(spec 43 R208). -/

namespace Sys2Proof.Machine

/-- Every slot of a cache holds (0, 0, 0) or a colour that the hash sends to that slot (42 R186; 46
R275). -/
def cacheHashed (m : Memory) : Prop :=
  ∀ i : Slot, cacheRead m i = { r := 0, g := 0, b := 0 } ∨ hashSlot (cacheRead m i) = i

/-- What holds of the encoder at every step boundary (10_state R22, R23, R25, R27; 41 R165; 42 R186). -/
structure Encoder.Inv (e : Encoder) : Prop where
  /-- The cache has its canonical form. -/
  cacheWf : e.cache.wf = true
  /-- Each slot holds a colour of its own hash. -/
  cacheHashed : cacheHashed e.cache
  /-- The run counter is in 0..61 (41 R165 (a)). -/
  runBound : e.run.toNat ≤ 61
  /-- No run is pending when the trailer starts (41 R165 (c)), nor before the first pixel. -/
  runFlushed : e.phase = .header ∨ e.phase = .trailer → e.run = 0
  /-- Pixels are left until the last one is consumed (40 R133). -/
  pixelsLeft : e.phase = .header ∨ e.phase = .pixels → e.pixLeft ≠ 0
  /-- None is left in the trailer. -/
  noneLeft : e.phase = .trailer → e.pixLeft = 0
  /-- A pass runs only with a channel count of 3 or 4 (60 R316). -/
  channels : e.phase ≠ .idle → channelsOk e.cfg.channels = true
  /-- `ok` is set together with `done` (10_state R27). -/
  okWithDone : e.ok = e.done
  /-- `done` is 1 only between passes (40 R138). -/
  doneIdle : e.done = true → e.phase = .idle

/-- What holds of the decoder at every step boundary (10_state R36, R37, R39, R40; 45 R251; 46 R276; 60
R301). -/
structure Decoder.Inv (d : Decoder) : Prop where
  /-- The cache has its canonical form. -/
  cacheWf : d.cache.wf = true
  /-- Each slot holds a colour of its own hash. -/
  cacheHashed : cacheHashed d.cache
  /-- The run counter is in 0..61 (10_state R39). -/
  runBound : d.run.toNat ≤ 61
  /-- Pixels are left in the pixel phase (45 R245). -/
  pixelsLeft : d.phase = .pixels → d.pixLeft ≠ 0
  /-- The alpha held constant is 255 through a pass (46 R276). -/
  alpha : d.phase ≠ .idle → d.prev.a = 255
  /-- The header registers are not populated before the header is parsed (10_state R36). -/
  headerPending : d.phase = .magic ∨ d.phase = .header → d.hdrValid = false
  /-- They are afterwards, with a channel count of 3 or 4 (45 R244). -/
  headerParsed : d.phase = .pixels ∨ d.phase = .trailer →
    d.hdrValid = true ∧ channelsOk d.hdr.channels = true
  /-- `done` is 1 only between passes (45 R251). -/
  doneIdle : d.done = true → d.phase = .idle
  /-- `valid` comes with `done` and a populated header (45 R251). -/
  validDone : d.valid = true → d.done = true ∧ d.hdrValid = true
  /-- A pass that has ended is valid exactly when no fault is recorded (10_state R40). -/
  doneReport : d.done = true → (d.valid = true ↔ d.fault = 0)
  /-- A fault is recorded only of a pass that has ended (60 R308). -/
  faultDone : d.fault ≠ 0 → d.done = true
  /-- The codes 6 and 7 are never produced (60 R301). -/
  faultCode : d.fault.toNat ≤ 5

/-- The invariant of the machine. -/
structure State.Inv (s : State) : Prop where
  encoder : s.enc.Inv
  decoder : s.dec.Inv

/-! ### The encoder's pixel step from its pseudocode -/

/-- The byte of a RUN of `k` pixels (30 R97, "Byte value = 0xC0 + (n - 1)"). -/
def runByte (k : Nat) : Byte := BitVec.ofNat 8 (0xC0 + (k - 1))

/-- The bytes of a literal form from the formulas of 30 R95, R96, R98 and the range tests of 43 R202,
R203. -/
def literalBytes (dr dg db : Int) (c : Rgb) : List Byte :=
  if -2 ≤ dr ∧ dr ≤ 1 ∧ -2 ≤ dg ∧ dg ≤ 1 ∧ -2 ≤ db ∧ db ≤ 1 then
    [BitVec.ofInt 8 (0x40 + 16 * (dr + 2) + 4 * (dg + 2) + (db + 2))]
  else if -32 ≤ dg ∧ dg ≤ 31 ∧ -8 ≤ dr - dg ∧ dr - dg ≤ 7 ∧ -8 ≤ db - dg ∧ db - dg ≤ 7 then
    [BitVec.ofInt 8 (0x80 + (dg + 32)), BitVec.ofInt 8 (16 * (dr - dg + 8) + (db - dg + 8))]
  else [0xFE, c.r, c.g, c.b]

/-- The pixel step on the encoder's registers, answering the bytes it appends: the pseudocode of 40 R133
with that of R134 to R136, R160 to R163, R180 to R184 and R200 to R207 in its places. -/
def pixelProcedure (wrap : Bool) (e : Encoder) (w : PixelWord) : Encoder × List Byte :=
  let c : Rgb := { r := w.extractLsb' 24 8, g := w.extractLsb' 16 8, b := w.extractLsb' 8 8 }
  let a : Byte := if e.cfg.channels = 4 then w.extractLsb' 0 8 else 255
  let n := e.run.toNat + 1
  let delta (x p : Byte) : Int :=
    if wrap then BitVec.toInt (BitVec.ofInt 8 (x.toNat - p.toNat)) else (x.toNat : Int) - p.toNat
  let idx := (3 * c.r.toNat + 5 * c.g.toNat + 7 * c.b.toNat + 2805) % 64
  let pending := if 0 < e.run.toNat then [runByte e.run.toNat] else []
  let out : RunCount × Memory × List Byte :=
    if c.r = e.prev.r ∧ c.g = e.prev.g ∧ c.b = e.prev.b then
      if n = 62 ∨ e.pixLeft = 1 then (0, e.cache, [runByte n])
      else (BitVec.ofNat 6 n, e.cache, [])
    else if readCell e.cache idx = rgbWord c then (0, e.cache, pending ++ [BitVec.ofNat 8 idx])
    else
      (0, writeCell e.cache idx (rgbWord c),
        pending ++ literalBytes (delta c.r e.prev.r) (delta c.g e.prev.g) (delta c.b e.prev.b) c)
  ({ e with
      prev := { c with a := a }
      run := out.1
      cache := out.2.1
      pixLeft := e.pixLeft - 1
      phase := if e.pixLeft = 1 then .trailer else .pixels },
    out.2.2)

/-- Bytes as the output port carries them before the end marker's last one. -/
def portBytes (bs : List Byte) : List OutByte := bs.map (fun b => { data := b, last := false })

/-- The RUN byte a breaking pixel sends first, if a run is pending (41 R163). -/
def pendingRun (run : RunCount) : List Byte := if run = 0 then [] else [runByte run.toNat]

/-! ### What one pixel leaves -/

/-- The state after an encoder step that took the pixel word `w` off the source (leaving `ps`), appended
the bytes `bs` and left the run counter at `run` and the cache at `m` (40 R133, R134, R136). -/
def pixelTaken (w : PixelWord) (ps : List PixelWord) (bs : List Byte) (run : RunCount) (m : Memory)
    (s : State) : State :=
  { s with
    pixSource := ps
    byteSink := s.byteSink ++ portBytes bs
    enc := { s.enc with
      prev := { wordPixelRgb w with a := if s.enc.cfg.channels = 4 then w.extractLsb' 0 8 else 255 }
      run := run
      cache := m
      pixLeft := s.enc.pixLeft - 1
      phase := if s.enc.pixLeft = 1 then .trailer else .pixels } }

/-- The state after a decoder iteration that took `n` bytes, produced the colour `c` and left the run
counter at `run` and the cache at `m` (45 R245, R249; 46 R276). -/
def pixelGiven (n : Nat) (c : Rgb) (run : RunCount) (m : Memory) (s : State) : State :=
  { s with
    byteSource := s.byteSource.drop n
    pixSink := s.pixSink ++
      [{ data := pixelWord { c with a := s.dec.prev.a }
         alpha := if s.dec.hdr.channels = 4 then some s.dec.prev.a else none }]
    dec := { s.dec with
      prev := { c with a := s.dec.prev.a }
      run := run
      cache := m
      pixLeft := s.dec.pixLeft - 1
      phase := if s.dec.pixLeft = 1 then .trailer else .pixels } }

/-- The state after a decoder pass has ended with a fault, the rest of the byte source being `bs` (60
R308). -/
def passFaulted (code : BitVec 3) (bs : List Byte) (s : State) : State :=
  { s with
    byteSource := bs
    dec := { s.dec with fault := code, valid := false, done := true, phase := .idle } }

/-- The operations after which a cache word is stored (42 R184; 46 R275). -/
def storesColour : Instr → Bool
  | .diff _ _ _ | .luma _ _ _ | .rgb _ _ _ => true
  | .header _ _ _ _ | .index _ | .run _ | .reservedFf | .endMarker => false

/-! ### Runs that differ in alpha only -/

/-- The two states agree but for the alpha of the pixels on offer and of the encoder's previous pixel. -/
def alphaOnly (s t : State) : Prop :=
  t.pixSource.map wordPixelRgb = s.pixSource.map wordPixelRgb ∧
    t = { s with
      pixSource := t.pixSource
      enc := { s.enc with prev := { s.enc.prev with a := t.enc.prev.a } } }

/-! ### Incomplete elements -/

/-- The byte source holds fewer bytes than the decoder's next step needs (45 R242, R243, R248, R250). -/
def needsMoreBytes (s : State) : Prop :=
  (s.dec.phase = .magic ∧ s.byteSource.length < 4) ∨
  (s.dec.phase = .header ∧ s.byteSource.length < 10) ∨
  (s.dec.phase = .trailer ∧ s.byteSource.length < 8) ∨
  (s.dec.phase = .pixels ∧ s.dec.pixLeft ≠ 0 ∧ s.dec.run = 0 ∧
    (s.byteSource = [] ∨
      (∃ t rest, s.byteSource = t :: rest ∧ 0x80 ≤ t.toNat ∧ t.toNat ≤ 0xBF ∧ rest = []) ∨
      (∃ rest, s.byteSource = 0xFE :: rest ∧ rest.length < 3)))

end Sys2Proof.Machine
end

