-- ==== Sys2Proof/Certificates/Slice0/Obligations.lean ====
section
/-! DEFINITION. The statements for the provers, from the numbered rules of spec/. Each docstring names the
rules its statement formalises. -/

open Sys2Proof Sys2Proof.Machine

/-! ### Reset, START, waiting -/

/-- 70 R340, R350: what a hardware reset leaves in both blocks, whatever the state, that the elements
transferred stay transferred, and that with both blocks in IDLE and no input pending nothing happens. That
a wait is a step to the same state is the model's choice (log entry 6), where 60 R315 has no step; that one
input resets both blocks is too (log entry 13). -/
def Obligations.HardwareResetLeavesIdle : Prop :=
  (∀ (s : State) (rest : List Input), s.inputs = .reset :: rest →
    ∃ t, step s = .next t ∧
      t.enc.phase = .idle ∧ t.enc.done = false ∧ t.enc.ok = false ∧
      t.dec.phase = .idle ∧ t.dec.done = false ∧ t.dec.valid = false ∧ t.dec.fault = 0 ∧
      t.dec.hdrValid = false ∧
      t.pixSource = s.pixSource ∧ t.byteSink = s.byteSink ∧ t.byteSource = s.byteSource ∧
      t.pixSink = s.pixSink ∧ t.inputs = rest) ∧
  (State.reset.enc.phase = .idle ∧ State.reset.enc.done = false ∧ State.reset.enc.ok = false ∧
    State.reset.dec.phase = .idle ∧ State.reset.dec.done = false ∧ State.reset.dec.valid = false ∧
    State.reset.dec.fault = 0 ∧ State.reset.dec.hdrValid = false) ∧
  (∀ s : State, s.inputs = [] → s.enc.phase = .idle → s.dec.phase = .idle → step s = .next s)

/-- 40 R130, R131 and 60 R316: START of the encoder in IDLE latches the configuration and initialises the
pass; during a pass it is ignored; where it breaks its preconditions it has no step. -/
def Obligations.EncoderStartInitialisesThePass : Prop :=
  ∀ (s : State) (cfg : Header) (rest : List Input), s.inputs = .startEncoder cfg :: rest →
    (s.enc.phase = .idle →
      1 ≤ cfg.width.toNat * cfg.height.toNat → (cfg.channels = 3 ∨ cfg.channels = 4) →
      step s = .next { s with
        inputs := rest
        enc := {
          cfg := cfg
          phase := .header
          pixLeft := BitVec.ofNat 64 (cfg.width.toNat * cfg.height.toNat)
          prev := { r := 0, g := 0, b := 0, a := 255 }
          run := 0
          cache := []
          done := false
          ok := false } }) ∧
    (s.enc.phase ≠ .idle → step s = .next { s with inputs := rest }) ∧
    (s.enc.phase = .idle →
      (cfg.width.toNat * cfg.height.toNat = 0 ∨ (cfg.channels ≠ 3 ∧ cfg.channels ≠ 4)) →
      step s = .refused .startPrecondition)

/-- 45 R240, R241: START of the decoder in IDLE initialises the pass and writes neither the `hdr` registers
nor `pix_left`; during a pass it is ignored. -/
def Obligations.DecoderStartInitialisesThePass : Prop :=
  ∀ (s : State) (rest : List Input), s.inputs = .startDecoder :: rest →
    (s.dec.phase = .idle →
      step s = .next { s with
        inputs := rest
        dec := {
          phase := .magic
          hdr := s.dec.hdr
          hdrValid := false
          pixLeft := s.dec.pixLeft
          prev := { r := 0, g := 0, b := 0, a := 255 }
          run := 0
          cache := []
          done := false
          valid := false
          fault := 0 } }) ∧
    (s.dec.phase ≠ .idle → step s = .next { s with inputs := rest })

/-- 60 R315: the five waits (a) to (e), with no fault and nothing recorded. -/
def Obligations.WaitingChangesNothing : Prop :=
  ∀ s : State, s.inputs = [] →
    (s.active = .encoder → s.enc.phase = .pixels → s.pixSource = [] → step s = .next s) ∧
    (s.active = .encoder → s.byteSinkReady = false → (∃ i, issued s = some i) → step s = .next s) ∧
    (s.active = .decoder → needsMoreBytes s → s.eos = false → step s = .next s) ∧
    (s.active = .decoder → s.dec.phase = .pixels → s.dec.pixLeft ≠ 0 → s.pixSinkReady = false →
      (s.dec.run ≠ 0 ∨
        ∃ i rest, decode .operation s.byteSource = .ok (i, rest) ∧ producesPixel i = true) →
      step s = .next s) ∧
    (s.active = .encoder → s.enc.phase = .idle → step s = .next s) ∧
    (s.active = .decoder → s.dec.phase = .idle → step s = .next s)

/-! ### A step runs the fetched or issued instruction -/

/-- 45 R245, 10_state R37: where the bytes at the decoder's position decode to an element, the step is exec
of it; exec itself takes the element's bytes off the source. -/
def Obligations.StepExecutesTheFetchedElement : Prop :=
  ∀ (s : State) (p : Position) (i : Instr) (rest : List Byte),
    s.inputs = [] → s.active = .decoder → fetchPosition s.dec.phase = some p →
    (s.dec.phase = .pixels → s.dec.pixLeft ≠ 0 ∧ s.dec.run = 0) →
    (producesPixel i = true → s.pixSinkReady = true) →
    decode p s.byteSource = .ok (i, rest) →
    step s = exec i s

/-- 40 R132, R133, R137: the encoder's step is exec of the element it issues. -/
def Obligations.StepExecutesTheIssuedElement : Prop :=
  ∀ (s : State) (i : Instr),
    s.inputs = [] → s.active = .encoder → s.byteSinkReady = true → issued s = some i →
    step s = exec i s

/-- The model's own placing of an opcode-table word (log entries 8 and 12): the very next step executes
what the decoder reads from the word. -/
def Obligations.PlacedTableWordRunsNext : Prop :=
  ∀ (s : State) (nbits w : Nat) (i : Instr), decodeTableWord nbits w = some i →
    step (s.withFetchWord nbits w) = exec i (s.withFetchWord nbits w)

/-! ### Encodings -/

/-- 30 R91, R92, R94 to R98, R101: a few words written out from the tables. -/
def Obligations.WordsOfTheSpecDecode : Prop :=
  decode .operation [0b00001001] = .ok (.index 9, []) ∧
  decode .operation [0b01111101] = .ok (.diff 1 1 (-1), []) ∧
  decode .operation [0b10101110, 0b01000101] = .ok (.luma 14 (-4) (-3), []) ∧
  decode .operation [0b11000001] = .ok (.run 2, []) ∧
  decode .operation [0b11111101] = .ok (.run 62, []) ∧
  decode .operation [0b11111110, 10, 20, 30] = .ok (.rgb 10 20 30, []) ∧
  decode .operation [0b11111111] = .ok (.reservedFf, []) ∧
  decode .start [0x71, 0x6F, 0x69, 0x66, 1, 2, 3, 4, 0, 0, 0, 1, 4, 1] =
    .ok (.header 0x01020304 1 4 1, []) ∧
  decode .trailer [0, 0, 0, 0, 0, 0, 0, 1] = .ok (.endMarker, [])

/-- 30 R91 to R98, R101: decoding the encoding of a well-formed element gives it back, and what follows it
is left, at every value of its operands. -/
def Obligations.DecodeInvertsEncode : Prop :=
  ∀ (i : Instr) (rest : List Byte), i.wf = true → decode i.position (encode i ++ rest) = .ok (i, rest)

/-- 30 R93 to R98, R102: what the decoder accepts is well-formed, stands at its position and has exactly the
bytes that encode it. -/
def Obligations.EncodeInvertsDecode : Prop :=
  ∀ (p : Position) (bs : List Byte) (i : Instr) (rest : List Byte), decode p bs = .ok (i, rest) →
    i.wf = true ∧
      (p = .afterMagic → magicBytes ++ bs = encode i ++ rest ∧ i.position = .start) ∧
      (p ≠ .afterMagic → bs = encode i ++ rest ∧ i.position = p)

/-- 45 R248 with the ranges of 30 R102: each kind's fields as numbers, from the tag byte and the bytes right
after it. -/
def Obligations.FieldsOfEveryTagByte : Prop :=
  ∀ (t u1 u2 u3 : Byte) (rest : List Byte),
    decode .operation (t :: u1 :: u2 :: u3 :: rest) =
      if t.toNat ≤ 0x3F then .ok (.index (BitVec.ofNat 6 t.toNat), u1 :: u2 :: u3 :: rest)
      else if t.toNat ≤ 0x7F then
        .ok (.diff ((t.toNat / 16 % 4 : Int) - 2) ((t.toNat / 4 % 4 : Int) - 2) ((t.toNat % 4 : Int) - 2),
          u1 :: u2 :: u3 :: rest)
      else if t.toNat ≤ 0xBF then
        .ok (.luma ((t.toNat % 64 : Int) - 32) ((u1.toNat / 16 : Int) - 8) ((u1.toNat % 16 : Int) - 8),
          u2 :: u3 :: rest)
      else if t.toNat ≤ 0xFD then .ok (.run (t.toNat % 64 + 1), u1 :: u2 :: u3 :: rest)
      else if t.toNat = 0xFE then .ok (.rgb u1 u2 u3, rest)
      else .ok (.reservedFf, u1 :: u2 :: u3 :: rest)

/-! ### Operands -/

/-- 42 R180: the hash over the integers, with the rule's examples. -/
def Obligations.HashOfAColour : Prop :=
  (∀ c : Rgb, (hashSlot c).toNat = (3 * c.r.toNat + 5 * c.g.toNat + 7 * c.b.toNat + 11 * 255) % 64) ∧
  hashSlot { r := 0, g := 0, b := 0 } = 53 ∧ hashSlot { r := 10, g := 20, b := 30 } = 9 ∧
  hashSlot { r := 255, g := 255, b := 255 } = 38 ∧ hashSlot { r := 1, g := 0, b := 0 } = 56 ∧
  hashSlot { r := 0, g := 1, b := 0 } = 58 ∧ hashSlot { r := 0, g := 0, b := 1 } = 60

/-- 42 R181: only the low six bits of each channel reach the hash. -/
def Obligations.HashIgnoresTopBits : Prop :=
  ∀ c d : Rgb, c.r.toNat % 64 = d.r.toNat % 64 → c.g.toNat % 64 = d.g.toNat % 64 →
    c.b.toNat % 64 = d.b.toNat % 64 →
    hashSlot c = hashSlot d ∧
      (hashSlot c).toNat =
        (3 * (c.r.toNat % 64) + 5 * (c.g.toNat % 64) + 7 * (c.b.toNat % 64) + 53) % 64

/-- 43 R200 and 46 R278: what each arm of the delta unit gives, where the arms agree, that only equal
channels have delta 0, and that the decoder's sum undoes either arm. -/
def Obligations.DeltaArms : Prop :=
  ∀ c p : Byte,
    channelDelta false c p = (c.toNat : Int) - p.toNat ∧
    (-128 ≤ channelDelta true c p ∧ channelDelta true c p ≤ 127 ∧
      (channelDelta true c p - ((c.toNat : Int) - p.toNat)) % 256 = 0) ∧
    (((c.toNat : Int) - p.toNat).natAbs ≤ 127 → channelDelta true c p = channelDelta false c p) ∧
    (∀ wrap, channelDelta wrap c p = 0 ↔ c = p) ∧
    (∀ wrap, addDelta p (channelDelta wrap c p) = c)

/-! ### The cache -/

/-- 20_memory R62, 42 R184, 46 R275: a store is seen by the next read of its slot and by no other slot's. -/
def Obligations.CacheReadAfterStore : Prop :=
  ∀ (m : Memory) (c : Rgb) (i : Slot), m.wf = true →
    cacheRead (cacheStore m c) i = if i = hashSlot c then c else cacheRead m i

/-- 42 R185: of all colours only (0, 0, 0) hits a slot that was never stored, and it does. -/
def Obligations.OnlyBlackHitsAnUnwrittenSlot : Prop :=
  ∀ (m : Memory) (c : Rgb), (∀ w, ((hashSlot c).toNat, w) ∉ m) →
    (cacheHit m c = true ↔ c = { r := 0, g := 0, b := 0 })

/-! ### The encoder's operations -/

/-- 40 R132: HEADER sends the 14 bytes, big-endian dimensions, and starts the pixels. -/
def Obligations.EncoderSendsHeader : Prop :=
  ∀ s : State, s.active = .encoder → s.enc.phase = .header →
    exec (.header s.enc.cfg.width s.enc.cfg.height s.enc.cfg.channels s.enc.cfg.colorspace) s =
      .next { s with
        byteSink := s.byteSink ++ portBytes
          [0x71, 0x6F, 0x69, 0x66,
            BitVec.ofNat 8 (s.enc.cfg.width.toNat / 2 ^ 24), BitVec.ofNat 8 (s.enc.cfg.width.toNat / 2 ^ 16),
            BitVec.ofNat 8 (s.enc.cfg.width.toNat / 2 ^ 8), BitVec.ofNat 8 s.enc.cfg.width.toNat,
            BitVec.ofNat 8 (s.enc.cfg.height.toNat / 2 ^ 24), BitVec.ofNat 8 (s.enc.cfg.height.toNat / 2 ^ 16),
            BitVec.ofNat 8 (s.enc.cfg.height.toNat / 2 ^ 8), BitVec.ofNat 8 s.enc.cfg.height.toNat,
            s.enc.cfg.channels, s.enc.cfg.colorspace]
        enc := { s.enc with phase := .pixels } }

/-- 41 R161, R162 and 40 R136: a pixel equal to the previous one extends the run; on the limit or on the
last pixel the run is flushed as one RUN, otherwise no byte is sent. -/
def Obligations.EncoderExtendsRun : Prop :=
  ∀ (s : State) (w : PixelWord) (ps : List PixelWord),
    s.active = .encoder → s.enc.phase = .pixels → s.enc.pixLeft ≠ 0 → s.pixSource = w :: ps →
    wordPixelRgb w = s.enc.prev.toRgb →
    ((s.enc.run.toNat + 1 = 62 ∨ s.enc.pixLeft = 1) →
      exec (.run (s.enc.run.toNat + 1)) s =
        .next (pixelTaken w ps [BitVec.ofNat 8 (0xC0 + s.enc.run.toNat)] 0 s.enc.cache s)) ∧
    (¬(s.enc.run.toNat + 1 = 62 ∨ s.enc.pixLeft = 1) → s.inputs = [] →
      issued s = none ∧
        step s = .next (pixelTaken w ps [] (BitVec.ofNat 6 (s.enc.run.toNat + 1)) s.enc.cache s))

/-- 42 R183 and 41 R163: a hit sends the pending run, then the slot number, and leaves the cache alone. -/
def Obligations.EncoderSendsIndex : Prop :=
  ∀ (s : State) (w : PixelWord) (ps : List PixelWord),
    s.active = .encoder → s.enc.phase = .pixels → s.enc.pixLeft ≠ 0 → s.pixSource = w :: ps →
    wordPixelRgb w ≠ s.enc.prev.toRgb →
    cacheRead s.enc.cache (hashSlot (wordPixelRgb w)) = wordPixelRgb w →
    exec (.index (hashSlot (wordPixelRgb w))) s =
      .next (pixelTaken w ps
        (pendingRun s.enc.run ++ [BitVec.ofNat 8 (hashSlot (wordPixelRgb w)).toNat]) 0 s.enc.cache s)

/-- 43 R205, 42 R184 and 41 R163: a miss whose deltas fit DIFF sends the pending run, stores the colour and
sends the one byte. -/
def Obligations.EncoderSendsDiff : Prop :=
  ∀ (s : State) (w : PixelWord) (ps : List PixelWord) (dr dg db : Int),
    s.active = .encoder → s.enc.phase = .pixels → s.enc.pixLeft ≠ 0 → s.pixSource = w :: ps →
    wordPixelRgb w ≠ s.enc.prev.toRgb →
    cacheRead s.enc.cache (hashSlot (wordPixelRgb w)) ≠ wordPixelRgb w →
    deltas s.deltaWrap s.enc.prev.toRgb (wordPixelRgb w) = { dr := dr, dg := dg, db := db } →
    -2 ≤ dr → dr ≤ 1 → -2 ≤ dg → dg ≤ 1 → -2 ≤ db → db ≤ 1 →
    exec (.diff dr dg db) s =
      .next (pixelTaken w ps
        (pendingRun s.enc.run ++ [BitVec.ofInt 8 (0x40 + 16 * (dr + 2) + 4 * (dg + 2) + (db + 2))])
        0 (cacheStore s.enc.cache (wordPixelRgb w)) s)

/-- 43 R206, 42 R184 and 41 R163: a miss that just fits LUMA sends the pending run, stores the colour and
sends the two bytes. -/
def Obligations.EncoderSendsLuma : Prop :=
  ∀ (s : State) (w : PixelWord) (ps : List PixelWord) (dr dg db : Int),
    s.active = .encoder → s.enc.phase = .pixels → s.enc.pixLeft ≠ 0 → s.pixSource = w :: ps →
    wordPixelRgb w ≠ s.enc.prev.toRgb →
    cacheRead s.enc.cache (hashSlot (wordPixelRgb w)) ≠ wordPixelRgb w →
    deltas s.deltaWrap s.enc.prev.toRgb (wordPixelRgb w) = { dr := dr, dg := dg, db := db } →
    ¬(-2 ≤ dr ∧ dr ≤ 1 ∧ -2 ≤ dg ∧ dg ≤ 1 ∧ -2 ≤ db ∧ db ≤ 1) →
    -32 ≤ dg → dg ≤ 31 → -8 ≤ dr - dg → dr - dg ≤ 7 → -8 ≤ db - dg → db - dg ≤ 7 →
    exec (.luma dg (dr - dg) (db - dg)) s =
      .next (pixelTaken w ps
        (pendingRun s.enc.run ++
          [BitVec.ofInt 8 (0x80 + (dg + 32)),
            BitVec.ofInt 8 (16 * (dr - dg + 8) + (db - dg + 8))])
        0 (cacheStore s.enc.cache (wordPixelRgb w)) s)

/-- 43 R207, 42 R184 and 41 R163: a miss that fits neither sends the pending run, stores the colour and
sends the tag and the three channels. -/
def Obligations.EncoderSendsRgb : Prop :=
  ∀ (s : State) (w : PixelWord) (ps : List PixelWord) (dr dg db : Int),
    s.active = .encoder → s.enc.phase = .pixels → s.enc.pixLeft ≠ 0 → s.pixSource = w :: ps →
    wordPixelRgb w ≠ s.enc.prev.toRgb →
    cacheRead s.enc.cache (hashSlot (wordPixelRgb w)) ≠ wordPixelRgb w →
    deltas s.deltaWrap s.enc.prev.toRgb (wordPixelRgb w) = { dr := dr, dg := dg, db := db } →
    ¬(-2 ≤ dr ∧ dr ≤ 1 ∧ -2 ≤ dg ∧ dg ≤ 1 ∧ -2 ≤ db ∧ db ≤ 1) →
    ¬(-32 ≤ dg ∧ dg ≤ 31 ∧ -8 ≤ dr - dg ∧ dr - dg ≤ 7 ∧ -8 ≤ db - dg ∧ db - dg ≤ 7) →
    exec (.rgb (wordPixelRgb w).r (wordPixelRgb w).g (wordPixelRgb w).b) s =
      .next (pixelTaken w ps
        (pendingRun s.enc.run ++
          [0xFE, (wordPixelRgb w).r, (wordPixelRgb w).g, (wordPixelRgb w).b])
        0 (cacheStore s.enc.cache (wordPixelRgb w)) s)

/-- 40 R137, R138: END sends seven bytes 00 and the last byte 01 with `out_last`, and the pass is done. -/
def Obligations.EncoderSendsEndMarker : Prop :=
  ∀ s : State, s.active = .encoder → s.enc.phase = .trailer →
    exec .endMarker s = .next { s with
      byteSink := s.byteSink ++ portBytes (List.replicate 7 0) ++ [{ data := 1, last := true }]
      enc := { s.enc with done := true, ok := true, phase := .idle } }

/-- 30 R101, R103 and 41 R164: the encoder issues well-formed elements only, never the reserved tag, no tag
byte of an operation it issues is FF, the RUN byte of a RUN it issues lies in C0 to FD, and the RUN byte
that a breaking pixel sends first (41 R163) in C0 to FC. The first clause, that exec of the reserved tag is
refused as notSelected, is the model's choice (log entry 11); the rules say only that the encoder never
emits it. -/
def Obligations.EncoderIssuesLegalElements : Prop :=
  ∀ s : State,
    (s.active = .encoder → exec .reservedFf s = .refused .notSelected) ∧
    (∀ i, s.enc.run.toNat ≤ 61 → issued s = some i →
      i.wf = true ∧ i ≠ .reservedFf ∧ (encode i).head? ≠ some 0xFF ∧
        (∀ n, i = .run n → ∃ b, encode i = [b] ∧ 0xC0 ≤ b.toNat ∧ b.toNat ≤ 0xFD)) ∧
    (∀ (w : PixelWord) (ps : List PixelWord) (i : Instr),
      s.active = .encoder → s.enc.phase = .pixels → s.enc.pixLeft ≠ 0 → s.pixSource = w :: ps →
      wordPixelRgb w ≠ s.enc.prev.toRgb → s.enc.run ≠ 0 → s.enc.run.toNat ≤ 61 → issued s = some i →
      ∃ (b : Byte) (t : State),
        exec i s = .next t ∧ t.byteSink = s.byteSink ++ portBytes (b :: encode i) ∧
          b.toNat = 0xC0 + (s.enc.run.toNat - 1) ∧ 0xC0 ≤ b.toNat ∧ b.toNat ≤ 0xFC)

/-- 40 R133: the encoder's step on an offered pixel is the pixel procedure of the pseudocode, for either
value of DELTA_WRAP, and appends at most five bytes. -/
def Obligations.PixelStepIsTheProcedure : Prop :=
  ∀ (s : State) (w : PixelWord) (ps : List PixelWord),
    s.inputs = [] → s.active = .encoder → s.byteSinkReady = true → s.enc.phase = .pixels →
    s.enc.pixLeft ≠ 0 → s.pixSource = w :: ps →
    step s = .next { s with
      pixSource := ps
      byteSink := s.byteSink ++ portBytes (pixelProcedure s.deltaWrap s.enc w).2
      enc := (pixelProcedure s.deltaWrap s.enc w).1 } ∧
    (pixelProcedure s.deltaWrap s.enc w).2.length ≤ 5

/-- 40 R141: the possible shapes of what one encoder step appends, with the run counter in its bound (41
R165 (a), `Encoder.Inv.runBound`): nothing, one RUN of 1 to 62, one other operation with a legal encoding, or
the RUN of 1 to 61 that was pending followed by one such operation. -/
def Obligations.ShapesOfAPixelStep : Prop :=
  ∀ s t : State, s.inputs = [] → s.active = .encoder → s.enc.phase = .pixels → s.enc.run.toNat ≤ 61 →
    step s = .next t →
    ∃ bs, t.byteSink = s.byteSink ++ portBytes bs ∧
      (bs = [] ∨ (∃ k, 1 ≤ k ∧ k ≤ 62 ∧ bs = encode (.run k)) ∨
        ∃ i, i.wf = true ∧ i.position = .operation ∧ i ≠ .reservedFf ∧ (∀ k, i ≠ .run k) ∧
          (bs = encode i ∨ ∃ k, 1 ≤ k ∧ k ≤ 61 ∧ bs = encode (.run k) ++ encode i))

/-- 43 R208: two encoder states that differ only in alpha take steps that differ only in alpha; the bytes
sent are the same. -/
def Obligations.AlphaNeverReachesTheBytes : Prop :=
  ∀ s s' t : State, s.inputs = [] → s.active = .encoder → alphaOnly s s' → step s = .next t →
    ∃ t', step s' = .next t' ∧ alphaOnly t t' ∧ t'.byteSink = t.byteSink

/-! ### The decoder's steps and operations -/

/-- 45 R242: four bytes are taken and then compared; a stream that ends before the fourth is truncated (45
R252; 60 R307), and that every byte that was left is then taken is DEDUCED (log entry 9). -/
def Obligations.MagicIsCheckedAfterFourBytes : Prop :=
  ∀ s : State, s.inputs = [] → s.active = .decoder → s.dec.phase = .magic →
    (∀ (m0 m1 m2 m3 : Byte) (rest : List Byte), s.byteSource = m0 :: m1 :: m2 :: m3 :: rest →
      ((m0 = 0x71 ∧ m1 = 0x6F ∧ m2 = 0x69 ∧ m3 = 0x66) →
        step s = .next { s with byteSource := rest, dec := { s.dec with phase := .header } }) ∧
      (¬(m0 = 0x71 ∧ m1 = 0x6F ∧ m2 = 0x69 ∧ m3 = 0x66) → step s = .next (passFaulted 1 rest s))) ∧
    (s.byteSource.length < 4 → s.eos = true → step s = .next (passFaulted 3 [] s))

/-- 45 R243, R244 and 60 R306: HEADER populates the four registers from the ten bytes after the magic; a
legal channel count starts the pixels, or with zero area the trailer; another one raises BAD_CHANNELS and
the registers stand; a stream that ends inside the ten bytes is truncated (60 R304), and that every byte
that was left is then taken is DEDUCED (log entry 9). -/
def Obligations.DecoderParsesHeader : Prop :=
  ∀ (s : State) (w h : Dim) (c cs : Byte), s.active = .decoder → s.dec.phase = .header →
    ((c = 3 ∨ c = 4) →
      exec (.header w h c cs) s = .next { s with
        byteSource := s.byteSource.drop 10
        dec := { s.dec with
          hdr := { width := w, height := h, channels := c, colorspace := cs }
          hdrValid := true
          pixLeft := BitVec.ofNat 64 (w.toNat * h.toNat)
          phase := if w.toNat * h.toNat = 0 then .trailer else .pixels } }) ∧
    (¬(c = 3 ∨ c = 4) →
      exec (.header w h c cs) s = .next { s with
        byteSource := s.byteSource.drop 10
        dec := { s.dec with
          hdr := { width := w, height := h, channels := c, colorspace := cs }
          hdrValid := true
          fault := 5
          valid := false
          done := true
          phase := .idle } }) ∧
    (s.inputs = [] → s.byteSource.length < 10 → s.eos = true → step s = .next (passFaulted 3 [] s))

/-- 46 R270: RUN n repeats the previous colour and keeps n - 1 iterations pending; the cache is neither read
nor written. -/
def Obligations.DecoderRunsRun : Prop :=
  ∀ (s : State) (n : Nat), s.active = .decoder → s.dec.phase = .pixels → s.dec.run = 0 →
    s.dec.pixLeft ≠ 0 → 1 ≤ n → n ≤ 62 →
    exec (.run n) s =
      .next (pixelGiven 1 s.dec.prev.toRgb (BitVec.ofNat 6 (n - 1)) s.dec.cache s)

/-- 45 R246: with a run pending no byte is read and the previous colour goes out again. -/
def Obligations.PendingRunReadsNoByte : Prop :=
  ∀ s : State, s.inputs = [] → s.active = .decoder → s.dec.phase = .pixels → s.dec.pixLeft ≠ 0 →
    s.dec.run ≠ 0 → s.pixSinkReady = true →
    step s = .next (pixelGiven 0 s.dec.prev.toRgb (BitVec.ofNat 6 (s.dec.run.toNat - 1)) s.dec.cache s)

/-- 46 R271: INDEX adopts the slot's colour; the cache is not written. -/
def Obligations.DecoderRunsIndex : Prop :=
  ∀ (s : State) (slot : Slot), s.active = .decoder → s.dec.phase = .pixels → s.dec.run = 0 →
    s.dec.pixLeft ≠ 0 →
    exec (.index slot) s = .next (pixelGiven 1 (cacheRead s.dec.cache slot) 0 s.dec.cache s)

/-- 46 R272, R275: RGB produces the three bytes and stores them under their hash; without three bytes after
the tag the stream is truncated (45 R252), and that every byte that was left is then taken is DEDUCED (log
entry 9). -/
def Obligations.DecoderRunsRgb : Prop :=
  ∀ (s : State) (r g b : Byte), s.active = .decoder → s.dec.phase = .pixels → s.dec.run = 0 →
    s.dec.pixLeft ≠ 0 →
    exec (.rgb r g b) s =
      .next (pixelGiven 4 { r := r, g := g, b := b } 0
        (writeCell s.dec.cache ((3 * r.toNat + 5 * g.toNat + 7 * b.toNat + 2805) % 64)
          (rgbWord { r := r, g := g, b := b })) s) ∧
    (∀ rest, s.inputs = [] → s.eos = true → s.byteSource = 0xFE :: rest → rest.length < 3 →
      step s = .next (passFaulted 3 [] s))

/-- 46 R273, R275, R278: DIFF adds its deltas to the previous colour modulo 256 and stores the result under
its hash. -/
def Obligations.DecoderRunsDiff : Prop :=
  ∀ (s : State) (dr dg db : Int), s.active = .decoder → s.dec.phase = .pixels → s.dec.run = 0 →
    s.dec.pixLeft ≠ 0 → (Instr.diff dr dg db).wf = true →
    ∃ c : Rgb,
      (c.r.toNat : Int) = (s.dec.prev.r.toNat + dr) % 256 ∧
      (c.g.toNat : Int) = (s.dec.prev.g.toNat + dg) % 256 ∧
      (c.b.toNat : Int) = (s.dec.prev.b.toNat + db) % 256 ∧
      exec (.diff dr dg db) s =
        .next (pixelGiven 1 c 0
          (writeCell s.dec.cache ((3 * c.r.toNat + 5 * c.g.toNat + 7 * c.b.toNat + 2805) % 64)
            (rgbWord c)) s)

/-- 46 R274, R275, R278: LUMA adds the green delta to green and the green plus a relative delta to red and
blue, modulo 256, and stores the result under its hash; without the second byte the stream is truncated (45
R252), and that every byte that was left is then taken is DEDUCED (log entry 9). -/
def Obligations.DecoderRunsLuma : Prop :=
  ∀ (s : State) (dg drg dbg : Int), s.active = .decoder → s.dec.phase = .pixels → s.dec.run = 0 →
    s.dec.pixLeft ≠ 0 → (Instr.luma dg drg dbg).wf = true →
    (∀ tag : Byte, s.inputs = [] → s.eos = true → s.byteSource = [tag] → 0x80 ≤ tag.toNat →
      tag.toNat ≤ 0xBF → step s = .next (passFaulted 3 [] s)) ∧
    ∃ c : Rgb,
      (c.g.toNat : Int) = (s.dec.prev.g.toNat + dg) % 256 ∧
      (c.r.toNat : Int) = (s.dec.prev.r.toNat + dg + drg) % 256 ∧
      (c.b.toNat : Int) = (s.dec.prev.b.toNat + dg + dbg) % 256 ∧
      exec (.luma dg drg dbg) s =
        .next (pixelGiven 2 c 0
          (writeCell s.dec.cache ((3 * c.r.toNat + 5 * c.g.toNat + 7 * c.b.toNat + 2805) % 64)
            (rgbWord c)) s)

/-- 46 R277 and 60 R305, R308: the reserved tag ends the pass with the fault, one byte taken, no pixel. -/
def Obligations.DecoderFaultsOnReservedTag : Prop :=
  ∀ s : State, s.active = .decoder → s.dec.phase = .pixels → s.dec.run = 0 → s.dec.pixLeft ≠ 0 →
    exec .reservedFf s = .next (passFaulted 4 (s.byteSource.drop 1) s)

/-- 45 R250 and 60 R303: eight bytes are taken and compared; a match makes the pass valid, a mismatch is
reported with the pixels as they are; a stream that ends inside them is truncated (60 R304, R307), and that
every byte that was left is then taken is DEDUCED (log entry 9). END is the match. -/
def Obligations.EndMarkerIsCheckedByteForByte : Prop :=
  ∀ s : State, s.active = .decoder → s.dec.phase = .trailer →
    exec .endMarker s = .next { s with
      byteSource := s.byteSource.drop 8
      dec := { s.dec with valid := true, fault := 0, done := true, phase := .idle } } ∧
    (∀ e rest : List Byte, s.inputs = [] → e.length = 8 → s.byteSource = e ++ rest →
      (e = [0, 0, 0, 0, 0, 0, 0, 1] → step s = exec .endMarker s) ∧
      (e ≠ [0, 0, 0, 0, 0, 0, 0, 1] → step s = .next (passFaulted 2 rest s))) ∧
    (s.inputs = [] → s.byteSource.length < 8 → s.eos = true → step s = .next (passFaulted 3 [] s))

/-- 45 R252, 60 R304: where a byte is missing and the source has signalled the end, the pass ends with
TRUNCATED; without the signal the decoder waits. That TRUNCATED takes every byte that was left is DEDUCED
from V-DEC4 (log entry 9), that a wait is a step to the same state is the model's choice (log entry 6). -/
def Obligations.MissingBytesTruncate : Prop :=
  ∀ s : State, s.inputs = [] → s.active = .decoder → needsMoreBytes s →
    (s.eos = true → step s = .next (passFaulted 3 [] s)) ∧ (s.eos = false → step s = .next s)

/-- 45 R249 and 46 R276: a decoder step hands over at most one pixel, whose colour is now the previous one;
its word on the port has the a field 255, and the pixel has the alpha 255 in a 4-channel image and none in a
3-channel image. -/
def Obligations.DecodedPixelsHaveAlpha255 : Prop :=
  ∀ s t : State, s.dec.Inv → s.inputs = [] → s.active = .decoder → step s = .next t →
    t.pixSink = s.pixSink ∨
      ∃ o, t.pixSink = s.pixSink ++ [o] ∧ o.data.extractLsb' 0 8 = 255 ∧
        (s.dec.hdr.channels = 4 → o.alpha = some 255) ∧ (s.dec.hdr.channels = 3 → o.alpha = none) ∧
        wordPixelRgb o.data = t.dec.prev.toRgb ∧ t.dec.pixLeft = s.dec.pixLeft - 1

/-- 45 R251: only a decoder step that met the whole end marker makes a pass valid. -/
def Obligations.ValidOnlyThroughTheEndMarker : Prop :=
  ∀ s t : State, step s = .next t → s.dec.valid = false → t.dec.valid = true →
    s.inputs = [] ∧ s.active = .decoder ∧ s.dec.phase = .trailer ∧
      s.byteSource.take 8 = [0, 0, 0, 0, 0, 0, 0, 1] ∧ t.dec.fault = 0 ∧ t.dec.done = true

/-! ### Frames -/

/-- The frame of the encoder's elements (10_state R21, R24 to R27; 42 R183, R184; 41 R166): the decoder, the
decoder's streams, the configuration and the parameter are unchanged; the flags but for END; the registers
of the pixel step for HEADER and END; every cache slot but the one the offered pixel hashes to, and all of
them unless the element is DIFF, LUMA or RGB; the bytes already sent stay. -/
def Obligations.EncoderFrame : Prop :=
  ∀ (i : Instr) (s t : State), s.active = .encoder → exec i s = .next t →
    t.dec = s.dec ∧ t.byteSource = s.byteSource ∧ t.eos = s.eos ∧ t.pixSink = s.pixSink ∧
    t.pixSinkReady = s.pixSinkReady ∧ t.byteSinkReady = s.byteSinkReady ∧ t.active = s.active ∧
    t.inputs = s.inputs ∧ t.deltaWrap = s.deltaWrap ∧ t.enc.cfg = s.enc.cfg ∧
    (∃ bs, t.byteSink = s.byteSink ++ bs) ∧
    (i ≠ .endMarker → t.enc.done = s.enc.done ∧ t.enc.ok = s.enc.ok) ∧
    (i.position ≠ .operation → t.enc.prev = s.enc.prev ∧ t.enc.run = s.enc.run ∧
      t.enc.pixLeft = s.enc.pixLeft ∧ t.pixSource = s.pixSource) ∧
    (storesColour i = false → ∀ j, cacheRead t.enc.cache j = cacheRead s.enc.cache j) ∧
    (∀ p, offeredPixel s = some p → ∀ j, j ≠ hashSlot p.toRgb →
      cacheRead t.enc.cache j = cacheRead s.enc.cache j)

/-- The frame of the decoder's elements (10_state R36, R38 to R40; 46 R270 to R277; 60 R308): the encoder,
the encoder's streams and the parameter are unchanged; the header registers but for HEADER; the report but
for the elements that end the pass; the previous alpha; the run counter but for RUN; the pixels, the
previous colour and the cache for the elements that produce no pixel; every cache slot but the one the new
colour hashes to, and all of them unless the element is DIFF, LUMA or RGB. -/
def Obligations.DecoderFrame : Prop :=
  ∀ (i : Instr) (s t : State), s.active = .decoder → exec i s = .next t →
    t.enc = s.enc ∧ t.pixSource = s.pixSource ∧ t.byteSink = s.byteSink ∧
    t.byteSinkReady = s.byteSinkReady ∧ t.eos = s.eos ∧ t.pixSinkReady = s.pixSinkReady ∧
    t.active = s.active ∧ t.inputs = s.inputs ∧ t.deltaWrap = s.deltaWrap ∧
    (i.position ≠ .start → t.dec.hdr = s.dec.hdr ∧ t.dec.hdrValid = s.dec.hdrValid) ∧
    (producesPixel i = true →
      t.dec.done = s.dec.done ∧ t.dec.valid = s.dec.valid ∧ t.dec.fault = s.dec.fault) ∧
    t.dec.prev.a = s.dec.prev.a ∧
    ((∀ n, i ≠ .run n) → t.dec.run = s.dec.run) ∧
    (producesPixel i = false → t.dec.prev = s.dec.prev ∧ t.pixSink = s.pixSink) ∧
    (producesPixel i = false → i.position ≠ .start → t.dec.pixLeft = s.dec.pixLeft) ∧
    (storesColour i = false → ∀ j, cacheRead t.dec.cache j = cacheRead s.dec.cache j) ∧
    (∀ j, j ≠ hashSlot t.dec.prev.toRgb → cacheRead t.dec.cache j = cacheRead s.dec.cache j)

/-- 00_scope R2, 20_memory R74: a step of one block, whatever it is, leaves the other block and its streams
as they are; START of one block leaves the other block as it is; the environment's other moves but reset
leave the registers of both blocks and what the sinks have taken as they are; and no move but the offer of
an element touches what the sources offer. -/
def Obligations.BlocksShareNothing : Prop :=
  (∀ s t : State, s.inputs = [] → step s = .next t →
    (s.active = .encoder → t.dec = s.dec ∧ t.byteSource = s.byteSource ∧ t.pixSink = s.pixSink) ∧
    (s.active = .decoder → t.enc = s.enc ∧ t.pixSource = s.pixSource ∧ t.byteSink = s.byteSink)) ∧
  (∀ (s t : State) (e : Input) (rest : List Input), s.inputs = e :: rest → step s = .next t →
    t.inputs = rest ∧ t.byteSink = s.byteSink ∧ t.pixSink = s.pixSink ∧ t.deltaWrap = s.deltaWrap ∧
    (e ≠ .reset → (∀ cfg, e ≠ .startEncoder cfg) → t.enc = s.enc) ∧
    (e ≠ .reset → e ≠ .startDecoder → t.dec = s.dec) ∧
    ((∀ w, e ≠ .offerPixel w) → t.pixSource = s.pixSource) ∧
    ((∀ b, e ≠ .offerByte b) → t.byteSource = s.byteSource))

/-- 40 R138, 45 R251, 60 R309: between passes every register of a block, its report (`done` and `ok`; `done`,
`valid` and `fault`) among them, holds through any step, of either block or of the environment, other than a
reset and a START of that block. -/
def Obligations.ReportsHoldUntilStartOrReset : Prop :=
  ∀ s t : State, step s = .next t →
    (s.enc.phase = .idle → s.inputs.head? ≠ some .reset →
      (∀ cfg, s.inputs.head? ≠ some (.startEncoder cfg)) → t.enc = s.enc) ∧
    (s.dec.phase = .idle → s.inputs.head? ≠ some .reset →
      s.inputs.head? ≠ some .startDecoder → t.dec = s.dec)

/-! ### Invariants and the whole machine -/

/-- The invariant holds after hardware reset; the values the spec leaves unspecified there are the model's
(log entries 1 and 2). -/
def Obligations.ResetMeetsTheInvariant : Prop := State.reset.Inv

/-- Every step keeps the invariant: the caches' canonical form, each slot's colour hashing to the slot
(42 R186), the run bound and its flush (41 R165), the pixel counters, the channel counts, the constant
alpha (46 R276), the flags and the fault codes (10_state R27, R40; 60 R301). -/
def Obligations.StepKeepsTheInvariant : Prop :=
  ∀ s t : State, s.Inv → step s = .next t → t.Inv

/-- 60 R300 with R316 for the encoder, 45 R245 with 60 R308 for the decoder, whose faults are next states (log
entry 19): from a state that meets the invariant every step completes, but for a START of the encoder that
breaks its preconditions. A wait counts as a step to the same state, which is the model's choice (log entry
6; 60 R315 has no step there). -/
def Obligations.InvariantStatesStep : Prop :=
  ∀ s : State, s.Inv →
    (∀ cfg rest, s.inputs = .startEncoder cfg :: rest → s.enc.phase = .idle → startOk cfg = true) →
    ∃ t, step s = .next t

/-- 46 R279 with 60 R300: for every legal configuration, every pixel sequence of its size and either value of
DELTA_WRAP, the encoder reaches `done` with `ok`, having taken every pixel; and the decoder, given exactly
the bytes the encoder sent, reaches `done` with `valid`, the same header, every byte taken, the same
colours in the same order, alpha 255 throughout in a 4-channel image and no alpha in a 3-channel image (46
R276), and the encoder's cache. -/
def Obligations.DecoderInvertsEncoder : Prop :=
  ∀ (s : State) (cfg : Header) (pixels : List PixelWord),
    s.enc.phase = .idle → s.dec.phase = .idle → startOk cfg = true →
    pixels.length = cfg.width.toNat * cfg.height.toNat →
    ∃ (m k : Nat) (t u : State),
      Sys2Proof.core.run m { s with
        active := .encoder, inputs := [.startEncoder cfg], pixSource := pixels, byteSink := [],
        byteSinkReady := true } = .next t ∧
      t.enc.done = true ∧ t.enc.ok = true ∧ t.pixSource = [] ∧
      Sys2Proof.core.run k { t with
        active := .decoder, inputs := [.startDecoder], byteSource := t.byteSink.map (fun b => b.data),
        pixSink := [], pixSinkReady := true } = .next u ∧
      u.dec.done = true ∧ u.dec.valid = true ∧ u.dec.hdr = cfg ∧ u.byteSource = [] ∧
      u.pixSink.map (fun o => wordPixelRgb o.data) = pixels.map wordPixelRgb ∧
      (∀ o ∈ u.pixSink, o.data.extractLsb' 0 8 = 255 ∧
        o.alpha = if cfg.channels = 4 then some 255 else none) ∧
      u.dec.cache = u.enc.cache
end

