-- ==== Sys2Proof/Laws/Memory.lean ====
section
/-! SUPPORT. Every cache operation keeps the canonical form (log entry 2), and the words of the ports and
of the cache lose nothing. -/

namespace Sys2Proof.Machine

/-- A canonical list above a bound is canonical above every lower one. -/
theorem wfFrom_mono {lo lo' : Nat} (hle : lo' ≤ lo) :
    ∀ {m : Memory}, m.wfFrom lo = true → m.wfFrom lo' = true
  | [], _ => rfl
  | (slot, w) :: m, h => by
    simp only [Memory.wfFrom, Bool.and_eq_true, decide_eq_true_eq] at h ⊢
    exact ⟨⟨⟨hle.trans h.1.1.1, h.1.1.2⟩, h.1.2⟩, h.2⟩

/-- A write inside the cache keeps the canonical form. -/
theorem writeCell_wfFrom {i : Nat} {v : CacheWord} (hi : i < Config.cacheSlots) :
    ∀ {lo : Nat} {m : Memory}, lo ≤ i → m.wfFrom lo = true → (writeCell m i v).wfFrom lo = true
  | lo, [], hlo, _ => by
    unfold writeCell
    split
    · rfl
    · simp_all [Memory.wfFrom]
  | lo, (slot, w) :: m, hlo, h => by
    simp only [Memory.wfFrom, Bool.and_eq_true, decide_eq_true_eq] at h
    obtain ⟨⟨⟨hs, hb⟩, hw⟩, hm⟩ := h
    unfold writeCell
    split
    · split
      · simp_all [Memory.wfFrom]
      · simp_all [Memory.wfFrom]
    · split
      · split
        · exact wfFrom_mono (by omega) hm
        · simp_all [Memory.wfFrom]
      · simp only [Memory.wfFrom, Bool.and_eq_true, decide_eq_true_eq]
        exact ⟨⟨⟨hs, hb⟩, hw⟩, writeCell_wfFrom hi (by omega) hm⟩

/-- The cache store of both blocks keeps the canonical form. -/
theorem cacheStore_wf {m : Memory} (c : Rgb) (h : m.wf = true) : (cacheStore m c).wf = true :=
  writeCell_wfFrom (hashSlot c).isLt (Nat.zero_le _) h

/-- The caches after hardware reset have the canonical form. -/
theorem reset_caches_wf : State.reset.enc.cache.wf = true ∧ State.reset.dec.cache.wf = true :=
  ⟨rfl, rfl⟩

/-- START's clear leaves a canonical cache that holds (0, 0, 0) in every slot (20_memory R63). -/
@[simp] theorem readCell_nil (i : Nat) : readCell [] i = 0 := rfl

/-- A slot below every listed one is unlisted. -/
theorem readCell_below {i : Nat} : ∀ {lo : Nat} {m : Memory}, i < lo → m.wfFrom lo = true →
    readCell m i = 0
  | _, [], _, _ => rfl
  | lo, (slot, w) :: m, hi, h => by
    simp only [Memory.wfFrom, Bool.and_eq_true, decide_eq_true_eq] at h
    obtain ⟨⟨⟨hs, _⟩, _⟩, hm⟩ := h
    have : slot ≠ i := by omega
    simp [readCell, this, readCell_below (show i < slot + 1 by omega) hm]

/-- The low part of an appended word. -/
theorem extractLsb'_append_low {m n : Nat} (x : BitVec m) (y : BitVec n) :
    (x ++ y).extractLsb' 0 n = y := by
  ext k hk
  simp [BitVec.getLsbD_append, hk]

/-- Any part of an appended word that lies above its low part. -/
theorem extractLsb'_append_high {m n : Nat} (x : BitVec m) (y : BitVec n) (start len : Nat)
    (h : n ≤ start) : (x ++ y).extractLsb' start len = x.extractLsb' (start - n) len := by
  ext k hk
  simp [BitVec.getLsbD_append, show ¬start + k < n by omega, show start + k - n = start - n + k by omega]

/-- A part of an appended word that lies inside its low part. -/
theorem extractLsb'_append_inside {m n : Nat} (x : BitVec m) (y : BitVec n) (start len : Nat)
    (h : start + len ≤ n) : (x ++ y).extractLsb' start len = y.extractLsb' start len := by
  ext k hk
  simp [BitVec.getLsbD_append, show start + k < n by omega]

/-- The whole of a word. -/
theorem extractLsb'_whole {n : Nat} (x : BitVec n) : x.extractLsb' 0 n = x := by
  ext k hk
  simp

/-- A cache word gives back the colour it was made of. -/
@[simp] theorem wordRgb_rgbWord (c : Rgb) : wordRgb (rgbWord c) = c := by
  rcases c with ⟨r, g, b⟩
  have hr : (r ++ g ++ b).extractLsb' 16 8 = r := by
    rw [extractLsb'_append_high _ _ _ _ (by omega), extractLsb'_append_high _ _ _ _ (by omega)]
    exact extractLsb'_whole r
  have hg : (r ++ g ++ b).extractLsb' 8 8 = g := by
    rw [extractLsb'_append_high _ _ _ _ (by omega)]
    exact extractLsb'_append_low r g
  exact congr (congrArg₂ Rgb.mk hr hg) (extractLsb'_append_low (r ++ g) b)

/-- A pixel word gives back the colour it was made of. -/
@[simp] theorem wordPixelRgb_pixelWord (p : Pixel) : wordPixelRgb (pixelWord p) = p.toRgb := by
  rcases p with ⟨⟨r, g, b⟩, a⟩
  have hr : (r ++ g ++ b ++ a).extractLsb' 24 8 = r := by
    rw [extractLsb'_append_high _ _ _ _ (by omega), extractLsb'_append_high _ _ _ _ (by omega),
      extractLsb'_append_high _ _ _ _ (by omega)]
    exact extractLsb'_whole r
  have hg : (r ++ g ++ b ++ a).extractLsb' 16 8 = g := by
    rw [extractLsb'_append_high _ _ _ _ (by omega), extractLsb'_append_high _ _ _ _ (by omega)]
    exact extractLsb'_append_low r g
  have hb : (r ++ g ++ b ++ a).extractLsb' 8 8 = b := by
    rw [extractLsb'_append_high _ _ _ _ (by omega)]
    exact extractLsb'_append_low (r ++ g) b
  exact congr (congrArg₂ Rgb.mk hr hg) hb

/-- The alpha of a pixel word (20_memory R65). -/
@[simp] theorem pixelWord_alpha (p : Pixel) : (pixelWord p).extractLsb' 0 8 = p.a :=
  extractLsb'_append_low (p.r ++ p.g ++ p.b) p.a

/-- The port's word of a pixel handed over. -/
@[simp] theorem outPixel_data (channels : Byte) (p : Pixel) :
    (outPixel channels p).data = pixelWord p := rfl

/-- A 4-channel pixel is handed over with its alpha (46 R276). -/
@[simp] theorem outPixel_alpha_four (p : Pixel) : (outPixel 4 p).alpha = some p.a := rfl

/-- A 3-channel pixel is handed over without alpha (46 R276). -/
@[simp] theorem outPixel_alpha_three (p : Pixel) : (outPixel 3 p).alpha = none := rfl

/-- The alpha handed over, for any channel count. -/
theorem outPixel_alpha (channels : Byte) (p : Pixel) :
    (outPixel channels p).alpha = if channels = 4 then some p.a else none := rfl

end Sys2Proof.Machine
end

