-- ==== Sys2Proof/Laws/State.lean ====
section
/-! SUPPORT. Beside State: what each named update leaves in each field, one lemma per field, true by
unfolding. -/

namespace Sys2Proof.Machine

/-! ### `sendBytes` -/

@[simp] theorem sendBytes_enc (bs : List Byte) (s : State) : (sendBytes bs s).enc = s.enc := rfl
@[simp] theorem sendBytes_dec (bs : List Byte) (s : State) : (sendBytes bs s).dec = s.dec := rfl
@[simp] theorem sendBytes_pixSource (bs : List Byte) (s : State) :
    (sendBytes bs s).pixSource = s.pixSource := rfl
@[simp] theorem sendBytes_byteSink (bs : List Byte) (s : State) :
    (sendBytes bs s).byteSink = s.byteSink ++ bs.map (fun b => { data := b, last := false }) := rfl
@[simp] theorem sendBytes_byteSinkReady (bs : List Byte) (s : State) :
    (sendBytes bs s).byteSinkReady = s.byteSinkReady := rfl
@[simp] theorem sendBytes_byteSource (bs : List Byte) (s : State) :
    (sendBytes bs s).byteSource = s.byteSource := rfl
@[simp] theorem sendBytes_eos (bs : List Byte) (s : State) : (sendBytes bs s).eos = s.eos := rfl
@[simp] theorem sendBytes_pixSink (bs : List Byte) (s : State) :
    (sendBytes bs s).pixSink = s.pixSink := rfl
@[simp] theorem sendBytes_pixSinkReady (bs : List Byte) (s : State) :
    (sendBytes bs s).pixSinkReady = s.pixSinkReady := rfl
@[simp] theorem sendBytes_active (bs : List Byte) (s : State) :
    (sendBytes bs s).active = s.active := rfl
@[simp] theorem sendBytes_inputs (bs : List Byte) (s : State) :
    (sendBytes bs s).inputs = s.inputs := rfl
@[simp] theorem sendBytes_deltaWrap (bs : List Byte) (s : State) :
    (sendBytes bs s).deltaWrap = s.deltaWrap := rfl

/-! ### `sendEndMarker` -/

@[simp] theorem sendEndMarker_enc (s : State) : (sendEndMarker s).enc = s.enc := rfl
@[simp] theorem sendEndMarker_dec (s : State) : (sendEndMarker s).dec = s.dec := rfl
@[simp] theorem sendEndMarker_pixSource (s : State) :
    (sendEndMarker s).pixSource = s.pixSource := rfl
@[simp] theorem sendEndMarker_byteSink (s : State) :
    (sendEndMarker s).byteSink = s.byteSink ++ endMarkerBytes.dropLast.map (fun b => { data := b, last := false }) ++ [{ data := 1, last := true }] := rfl
@[simp] theorem sendEndMarker_byteSinkReady (s : State) :
    (sendEndMarker s).byteSinkReady = s.byteSinkReady := rfl
@[simp] theorem sendEndMarker_byteSource (s : State) :
    (sendEndMarker s).byteSource = s.byteSource := rfl
@[simp] theorem sendEndMarker_eos (s : State) : (sendEndMarker s).eos = s.eos := rfl
@[simp] theorem sendEndMarker_pixSink (s : State) : (sendEndMarker s).pixSink = s.pixSink := rfl
@[simp] theorem sendEndMarker_pixSinkReady (s : State) :
    (sendEndMarker s).pixSinkReady = s.pixSinkReady := rfl
@[simp] theorem sendEndMarker_active (s : State) : (sendEndMarker s).active = s.active := rfl
@[simp] theorem sendEndMarker_inputs (s : State) : (sendEndMarker s).inputs = s.inputs := rfl
@[simp] theorem sendEndMarker_deltaWrap (s : State) :
    (sendEndMarker s).deltaWrap = s.deltaWrap := rfl

/-! ### `takeBytes` -/

@[simp] theorem takeBytes_enc (n : Nat) (s : State) : (takeBytes n s).enc = s.enc := rfl
@[simp] theorem takeBytes_dec (n : Nat) (s : State) : (takeBytes n s).dec = s.dec := rfl
@[simp] theorem takeBytes_pixSource (n : Nat) (s : State) :
    (takeBytes n s).pixSource = s.pixSource := rfl
@[simp] theorem takeBytes_byteSink (n : Nat) (s : State) :
    (takeBytes n s).byteSink = s.byteSink := rfl
@[simp] theorem takeBytes_byteSinkReady (n : Nat) (s : State) :
    (takeBytes n s).byteSinkReady = s.byteSinkReady := rfl
@[simp] theorem takeBytes_byteSource (n : Nat) (s : State) :
    (takeBytes n s).byteSource = s.byteSource.drop n := rfl
@[simp] theorem takeBytes_eos (n : Nat) (s : State) : (takeBytes n s).eos = s.eos := rfl
@[simp] theorem takeBytes_pixSink (n : Nat) (s : State) : (takeBytes n s).pixSink = s.pixSink := rfl
@[simp] theorem takeBytes_pixSinkReady (n : Nat) (s : State) :
    (takeBytes n s).pixSinkReady = s.pixSinkReady := rfl
@[simp] theorem takeBytes_active (n : Nat) (s : State) : (takeBytes n s).active = s.active := rfl
@[simp] theorem takeBytes_inputs (n : Nat) (s : State) : (takeBytes n s).inputs = s.inputs := rfl
@[simp] theorem takeBytes_deltaWrap (n : Nat) (s : State) :
    (takeBytes n s).deltaWrap = s.deltaWrap := rfl

/-! ### `takeAllBytes` -/

@[simp] theorem takeAllBytes_enc (s : State) : (takeAllBytes s).enc = s.enc := rfl
@[simp] theorem takeAllBytes_dec (s : State) : (takeAllBytes s).dec = s.dec := rfl
@[simp] theorem takeAllBytes_pixSource (s : State) : (takeAllBytes s).pixSource = s.pixSource := rfl
@[simp] theorem takeAllBytes_byteSink (s : State) : (takeAllBytes s).byteSink = s.byteSink := rfl
@[simp] theorem takeAllBytes_byteSinkReady (s : State) :
    (takeAllBytes s).byteSinkReady = s.byteSinkReady := rfl
@[simp] theorem takeAllBytes_byteSource (s : State) : (takeAllBytes s).byteSource = [] := rfl
@[simp] theorem takeAllBytes_eos (s : State) : (takeAllBytes s).eos = s.eos := rfl
@[simp] theorem takeAllBytes_pixSink (s : State) : (takeAllBytes s).pixSink = s.pixSink := rfl
@[simp] theorem takeAllBytes_pixSinkReady (s : State) :
    (takeAllBytes s).pixSinkReady = s.pixSinkReady := rfl
@[simp] theorem takeAllBytes_active (s : State) : (takeAllBytes s).active = s.active := rfl
@[simp] theorem takeAllBytes_inputs (s : State) : (takeAllBytes s).inputs = s.inputs := rfl
@[simp] theorem takeAllBytes_deltaWrap (s : State) : (takeAllBytes s).deltaWrap = s.deltaWrap := rfl

/-! ### `encoderStart` -/

@[simp] theorem encoderStart_enc_cfg (cfg : Header) (s : State) :
    (encoderStart cfg s).enc.cfg = cfg := rfl
@[simp] theorem encoderStart_enc_phase (cfg : Header) (s : State) :
    (encoderStart cfg s).enc.phase = .header := rfl
@[simp] theorem encoderStart_enc_pixLeft (cfg : Header) (s : State) :
    (encoderStart cfg s).enc.pixLeft = pixelCount cfg := rfl
@[simp] theorem encoderStart_enc_prev (cfg : Header) (s : State) :
    (encoderStart cfg s).enc.prev = seed := rfl
@[simp] theorem encoderStart_enc_run (cfg : Header) (s : State) :
    (encoderStart cfg s).enc.run = 0 := rfl
@[simp] theorem encoderStart_enc_cache (cfg : Header) (s : State) :
    (encoderStart cfg s).enc.cache = [] := rfl
@[simp] theorem encoderStart_enc_done (cfg : Header) (s : State) :
    (encoderStart cfg s).enc.done = false := rfl
@[simp] theorem encoderStart_enc_ok (cfg : Header) (s : State) :
    (encoderStart cfg s).enc.ok = false := rfl
@[simp] theorem encoderStart_dec (cfg : Header) (s : State) :
    (encoderStart cfg s).dec = s.dec := rfl
@[simp] theorem encoderStart_pixSource (cfg : Header) (s : State) :
    (encoderStart cfg s).pixSource = s.pixSource := rfl
@[simp] theorem encoderStart_byteSink (cfg : Header) (s : State) :
    (encoderStart cfg s).byteSink = s.byteSink := rfl
@[simp] theorem encoderStart_byteSinkReady (cfg : Header) (s : State) :
    (encoderStart cfg s).byteSinkReady = s.byteSinkReady := rfl
@[simp] theorem encoderStart_byteSource (cfg : Header) (s : State) :
    (encoderStart cfg s).byteSource = s.byteSource := rfl
@[simp] theorem encoderStart_eos (cfg : Header) (s : State) :
    (encoderStart cfg s).eos = s.eos := rfl
@[simp] theorem encoderStart_pixSink (cfg : Header) (s : State) :
    (encoderStart cfg s).pixSink = s.pixSink := rfl
@[simp] theorem encoderStart_pixSinkReady (cfg : Header) (s : State) :
    (encoderStart cfg s).pixSinkReady = s.pixSinkReady := rfl
@[simp] theorem encoderStart_active (cfg : Header) (s : State) :
    (encoderStart cfg s).active = s.active := rfl
@[simp] theorem encoderStart_inputs (cfg : Header) (s : State) :
    (encoderStart cfg s).inputs = s.inputs := rfl
@[simp] theorem encoderStart_deltaWrap (cfg : Header) (s : State) :
    (encoderStart cfg s).deltaWrap = s.deltaWrap := rfl

/-! ### `setEncPhase` -/

@[simp] theorem setEncPhase_enc_cfg (p : EncPhase) (s : State) :
    (setEncPhase p s).enc.cfg = s.enc.cfg := rfl
@[simp] theorem setEncPhase_enc_phase (p : EncPhase) (s : State) :
    (setEncPhase p s).enc.phase = p := rfl
@[simp] theorem setEncPhase_enc_pixLeft (p : EncPhase) (s : State) :
    (setEncPhase p s).enc.pixLeft = s.enc.pixLeft := rfl
@[simp] theorem setEncPhase_enc_prev (p : EncPhase) (s : State) :
    (setEncPhase p s).enc.prev = s.enc.prev := rfl
@[simp] theorem setEncPhase_enc_run (p : EncPhase) (s : State) :
    (setEncPhase p s).enc.run = s.enc.run := rfl
@[simp] theorem setEncPhase_enc_cache (p : EncPhase) (s : State) :
    (setEncPhase p s).enc.cache = s.enc.cache := rfl
@[simp] theorem setEncPhase_enc_done (p : EncPhase) (s : State) :
    (setEncPhase p s).enc.done = s.enc.done := rfl
@[simp] theorem setEncPhase_enc_ok (p : EncPhase) (s : State) :
    (setEncPhase p s).enc.ok = s.enc.ok := rfl
@[simp] theorem setEncPhase_dec (p : EncPhase) (s : State) : (setEncPhase p s).dec = s.dec := rfl
@[simp] theorem setEncPhase_pixSource (p : EncPhase) (s : State) :
    (setEncPhase p s).pixSource = s.pixSource := rfl
@[simp] theorem setEncPhase_byteSink (p : EncPhase) (s : State) :
    (setEncPhase p s).byteSink = s.byteSink := rfl
@[simp] theorem setEncPhase_byteSinkReady (p : EncPhase) (s : State) :
    (setEncPhase p s).byteSinkReady = s.byteSinkReady := rfl
@[simp] theorem setEncPhase_byteSource (p : EncPhase) (s : State) :
    (setEncPhase p s).byteSource = s.byteSource := rfl
@[simp] theorem setEncPhase_eos (p : EncPhase) (s : State) : (setEncPhase p s).eos = s.eos := rfl
@[simp] theorem setEncPhase_pixSink (p : EncPhase) (s : State) :
    (setEncPhase p s).pixSink = s.pixSink := rfl
@[simp] theorem setEncPhase_pixSinkReady (p : EncPhase) (s : State) :
    (setEncPhase p s).pixSinkReady = s.pixSinkReady := rfl
@[simp] theorem setEncPhase_active (p : EncPhase) (s : State) :
    (setEncPhase p s).active = s.active := rfl
@[simp] theorem setEncPhase_inputs (p : EncPhase) (s : State) :
    (setEncPhase p s).inputs = s.inputs := rfl
@[simp] theorem setEncPhase_deltaWrap (p : EncPhase) (s : State) :
    (setEncPhase p s).deltaWrap = s.deltaWrap := rfl

/-! ### `setEncRun` -/

@[simp] theorem setEncRun_enc_cfg (n : RunCount) (s : State) :
    (setEncRun n s).enc.cfg = s.enc.cfg := rfl
@[simp] theorem setEncRun_enc_phase (n : RunCount) (s : State) :
    (setEncRun n s).enc.phase = s.enc.phase := rfl
@[simp] theorem setEncRun_enc_pixLeft (n : RunCount) (s : State) :
    (setEncRun n s).enc.pixLeft = s.enc.pixLeft := rfl
@[simp] theorem setEncRun_enc_prev (n : RunCount) (s : State) :
    (setEncRun n s).enc.prev = s.enc.prev := rfl
@[simp] theorem setEncRun_enc_run (n : RunCount) (s : State) : (setEncRun n s).enc.run = n := rfl
@[simp] theorem setEncRun_enc_cache (n : RunCount) (s : State) :
    (setEncRun n s).enc.cache = s.enc.cache := rfl
@[simp] theorem setEncRun_enc_done (n : RunCount) (s : State) :
    (setEncRun n s).enc.done = s.enc.done := rfl
@[simp] theorem setEncRun_enc_ok (n : RunCount) (s : State) :
    (setEncRun n s).enc.ok = s.enc.ok := rfl
@[simp] theorem setEncRun_dec (n : RunCount) (s : State) : (setEncRun n s).dec = s.dec := rfl
@[simp] theorem setEncRun_pixSource (n : RunCount) (s : State) :
    (setEncRun n s).pixSource = s.pixSource := rfl
@[simp] theorem setEncRun_byteSink (n : RunCount) (s : State) :
    (setEncRun n s).byteSink = s.byteSink := rfl
@[simp] theorem setEncRun_byteSinkReady (n : RunCount) (s : State) :
    (setEncRun n s).byteSinkReady = s.byteSinkReady := rfl
@[simp] theorem setEncRun_byteSource (n : RunCount) (s : State) :
    (setEncRun n s).byteSource = s.byteSource := rfl
@[simp] theorem setEncRun_eos (n : RunCount) (s : State) : (setEncRun n s).eos = s.eos := rfl
@[simp] theorem setEncRun_pixSink (n : RunCount) (s : State) :
    (setEncRun n s).pixSink = s.pixSink := rfl
@[simp] theorem setEncRun_pixSinkReady (n : RunCount) (s : State) :
    (setEncRun n s).pixSinkReady = s.pixSinkReady := rfl
@[simp] theorem setEncRun_active (n : RunCount) (s : State) :
    (setEncRun n s).active = s.active := rfl
@[simp] theorem setEncRun_inputs (n : RunCount) (s : State) :
    (setEncRun n s).inputs = s.inputs := rfl
@[simp] theorem setEncRun_deltaWrap (n : RunCount) (s : State) :
    (setEncRun n s).deltaWrap = s.deltaWrap := rfl

/-! ### `encStore` -/

@[simp] theorem encStore_enc_cfg (c : Rgb) (s : State) : (encStore c s).enc.cfg = s.enc.cfg := rfl
@[simp] theorem encStore_enc_phase (c : Rgb) (s : State) :
    (encStore c s).enc.phase = s.enc.phase := rfl
@[simp] theorem encStore_enc_pixLeft (c : Rgb) (s : State) :
    (encStore c s).enc.pixLeft = s.enc.pixLeft := rfl
@[simp] theorem encStore_enc_prev (c : Rgb) (s : State) :
    (encStore c s).enc.prev = s.enc.prev := rfl
@[simp] theorem encStore_enc_run (c : Rgb) (s : State) : (encStore c s).enc.run = s.enc.run := rfl
@[simp] theorem encStore_enc_cache (c : Rgb) (s : State) :
    (encStore c s).enc.cache = cacheStore s.enc.cache c := rfl
@[simp] theorem encStore_enc_done (c : Rgb) (s : State) :
    (encStore c s).enc.done = s.enc.done := rfl
@[simp] theorem encStore_enc_ok (c : Rgb) (s : State) : (encStore c s).enc.ok = s.enc.ok := rfl
@[simp] theorem encStore_dec (c : Rgb) (s : State) : (encStore c s).dec = s.dec := rfl
@[simp] theorem encStore_pixSource (c : Rgb) (s : State) :
    (encStore c s).pixSource = s.pixSource := rfl
@[simp] theorem encStore_byteSink (c : Rgb) (s : State) :
    (encStore c s).byteSink = s.byteSink := rfl
@[simp] theorem encStore_byteSinkReady (c : Rgb) (s : State) :
    (encStore c s).byteSinkReady = s.byteSinkReady := rfl
@[simp] theorem encStore_byteSource (c : Rgb) (s : State) :
    (encStore c s).byteSource = s.byteSource := rfl
@[simp] theorem encStore_eos (c : Rgb) (s : State) : (encStore c s).eos = s.eos := rfl
@[simp] theorem encStore_pixSink (c : Rgb) (s : State) : (encStore c s).pixSink = s.pixSink := rfl
@[simp] theorem encStore_pixSinkReady (c : Rgb) (s : State) :
    (encStore c s).pixSinkReady = s.pixSinkReady := rfl
@[simp] theorem encStore_active (c : Rgb) (s : State) : (encStore c s).active = s.active := rfl
@[simp] theorem encStore_inputs (c : Rgb) (s : State) : (encStore c s).inputs = s.inputs := rfl
@[simp] theorem encStore_deltaWrap (c : Rgb) (s : State) :
    (encStore c s).deltaWrap = s.deltaWrap := rfl

/-! ### `retirePixel` -/

@[simp] theorem retirePixel_enc_cfg (p : Pixel) (s : State) :
    (retirePixel p s).enc.cfg = s.enc.cfg := rfl
@[simp] theorem retirePixel_enc_phase (p : Pixel) (s : State) :
    (retirePixel p s).enc.phase = if isLast s.enc.pixLeft then .trailer else s.enc.phase := rfl
@[simp] theorem retirePixel_enc_pixLeft (p : Pixel) (s : State) :
    (retirePixel p s).enc.pixLeft = s.enc.pixLeft - 1 := rfl
@[simp] theorem retirePixel_enc_prev (p : Pixel) (s : State) : (retirePixel p s).enc.prev = p := rfl
@[simp] theorem retirePixel_enc_run (p : Pixel) (s : State) :
    (retirePixel p s).enc.run = s.enc.run := rfl
@[simp] theorem retirePixel_enc_cache (p : Pixel) (s : State) :
    (retirePixel p s).enc.cache = s.enc.cache := rfl
@[simp] theorem retirePixel_enc_done (p : Pixel) (s : State) :
    (retirePixel p s).enc.done = s.enc.done := rfl
@[simp] theorem retirePixel_enc_ok (p : Pixel) (s : State) :
    (retirePixel p s).enc.ok = s.enc.ok := rfl
@[simp] theorem retirePixel_dec (p : Pixel) (s : State) : (retirePixel p s).dec = s.dec := rfl
@[simp] theorem retirePixel_pixSource (p : Pixel) (s : State) :
    (retirePixel p s).pixSource = s.pixSource.tail := rfl
@[simp] theorem retirePixel_byteSink (p : Pixel) (s : State) :
    (retirePixel p s).byteSink = s.byteSink := rfl
@[simp] theorem retirePixel_byteSinkReady (p : Pixel) (s : State) :
    (retirePixel p s).byteSinkReady = s.byteSinkReady := rfl
@[simp] theorem retirePixel_byteSource (p : Pixel) (s : State) :
    (retirePixel p s).byteSource = s.byteSource := rfl
@[simp] theorem retirePixel_eos (p : Pixel) (s : State) : (retirePixel p s).eos = s.eos := rfl
@[simp] theorem retirePixel_pixSink (p : Pixel) (s : State) :
    (retirePixel p s).pixSink = s.pixSink := rfl
@[simp] theorem retirePixel_pixSinkReady (p : Pixel) (s : State) :
    (retirePixel p s).pixSinkReady = s.pixSinkReady := rfl
@[simp] theorem retirePixel_active (p : Pixel) (s : State) :
    (retirePixel p s).active = s.active := rfl
@[simp] theorem retirePixel_inputs (p : Pixel) (s : State) :
    (retirePixel p s).inputs = s.inputs := rfl
@[simp] theorem retirePixel_deltaWrap (p : Pixel) (s : State) :
    (retirePixel p s).deltaWrap = s.deltaWrap := rfl

/-! ### `encoderDone` -/

@[simp] theorem encoderDone_enc_cfg (s : State) : (encoderDone s).enc.cfg = s.enc.cfg := rfl
@[simp] theorem encoderDone_enc_phase (s : State) : (encoderDone s).enc.phase = .idle := rfl
@[simp] theorem encoderDone_enc_pixLeft (s : State) :
    (encoderDone s).enc.pixLeft = s.enc.pixLeft := rfl
@[simp] theorem encoderDone_enc_prev (s : State) : (encoderDone s).enc.prev = s.enc.prev := rfl
@[simp] theorem encoderDone_enc_run (s : State) : (encoderDone s).enc.run = s.enc.run := rfl
@[simp] theorem encoderDone_enc_cache (s : State) : (encoderDone s).enc.cache = s.enc.cache := rfl
@[simp] theorem encoderDone_enc_done (s : State) : (encoderDone s).enc.done = true := rfl
@[simp] theorem encoderDone_enc_ok (s : State) : (encoderDone s).enc.ok = true := rfl
@[simp] theorem encoderDone_dec (s : State) : (encoderDone s).dec = s.dec := rfl
@[simp] theorem encoderDone_pixSource (s : State) : (encoderDone s).pixSource = s.pixSource := rfl
@[simp] theorem encoderDone_byteSink (s : State) : (encoderDone s).byteSink = s.byteSink := rfl
@[simp] theorem encoderDone_byteSinkReady (s : State) :
    (encoderDone s).byteSinkReady = s.byteSinkReady := rfl
@[simp] theorem encoderDone_byteSource (s : State) :
    (encoderDone s).byteSource = s.byteSource := rfl
@[simp] theorem encoderDone_eos (s : State) : (encoderDone s).eos = s.eos := rfl
@[simp] theorem encoderDone_pixSink (s : State) : (encoderDone s).pixSink = s.pixSink := rfl
@[simp] theorem encoderDone_pixSinkReady (s : State) :
    (encoderDone s).pixSinkReady = s.pixSinkReady := rfl
@[simp] theorem encoderDone_active (s : State) : (encoderDone s).active = s.active := rfl
@[simp] theorem encoderDone_inputs (s : State) : (encoderDone s).inputs = s.inputs := rfl
@[simp] theorem encoderDone_deltaWrap (s : State) : (encoderDone s).deltaWrap = s.deltaWrap := rfl

/-! ### `decoderStart` -/

@[simp] theorem decoderStart_enc (s : State) : (decoderStart s).enc = s.enc := rfl
@[simp] theorem decoderStart_dec_phase (s : State) : (decoderStart s).dec.phase = .magic := rfl
@[simp] theorem decoderStart_dec_hdr (s : State) : (decoderStart s).dec.hdr = s.dec.hdr := rfl
@[simp] theorem decoderStart_dec_hdrValid (s : State) : (decoderStart s).dec.hdrValid = false := rfl
@[simp] theorem decoderStart_dec_pixLeft (s : State) :
    (decoderStart s).dec.pixLeft = s.dec.pixLeft := rfl
@[simp] theorem decoderStart_dec_prev (s : State) : (decoderStart s).dec.prev = seed := rfl
@[simp] theorem decoderStart_dec_run (s : State) : (decoderStart s).dec.run = 0 := rfl
@[simp] theorem decoderStart_dec_cache (s : State) : (decoderStart s).dec.cache = [] := rfl
@[simp] theorem decoderStart_dec_done (s : State) : (decoderStart s).dec.done = false := rfl
@[simp] theorem decoderStart_dec_valid (s : State) : (decoderStart s).dec.valid = false := rfl
@[simp] theorem decoderStart_dec_fault (s : State) : (decoderStart s).dec.fault = 0 := rfl
@[simp] theorem decoderStart_pixSource (s : State) : (decoderStart s).pixSource = s.pixSource := rfl
@[simp] theorem decoderStart_byteSink (s : State) : (decoderStart s).byteSink = s.byteSink := rfl
@[simp] theorem decoderStart_byteSinkReady (s : State) :
    (decoderStart s).byteSinkReady = s.byteSinkReady := rfl
@[simp] theorem decoderStart_byteSource (s : State) :
    (decoderStart s).byteSource = s.byteSource := rfl
@[simp] theorem decoderStart_eos (s : State) : (decoderStart s).eos = s.eos := rfl
@[simp] theorem decoderStart_pixSink (s : State) : (decoderStart s).pixSink = s.pixSink := rfl
@[simp] theorem decoderStart_pixSinkReady (s : State) :
    (decoderStart s).pixSinkReady = s.pixSinkReady := rfl
@[simp] theorem decoderStart_active (s : State) : (decoderStart s).active = s.active := rfl
@[simp] theorem decoderStart_inputs (s : State) : (decoderStart s).inputs = s.inputs := rfl
@[simp] theorem decoderStart_deltaWrap (s : State) : (decoderStart s).deltaWrap = s.deltaWrap := rfl

/-! ### `setDecPhase` -/

@[simp] theorem setDecPhase_enc (p : DecPhase) (s : State) : (setDecPhase p s).enc = s.enc := rfl
@[simp] theorem setDecPhase_dec_phase (p : DecPhase) (s : State) :
    (setDecPhase p s).dec.phase = p := rfl
@[simp] theorem setDecPhase_dec_hdr (p : DecPhase) (s : State) :
    (setDecPhase p s).dec.hdr = s.dec.hdr := rfl
@[simp] theorem setDecPhase_dec_hdrValid (p : DecPhase) (s : State) :
    (setDecPhase p s).dec.hdrValid = s.dec.hdrValid := rfl
@[simp] theorem setDecPhase_dec_pixLeft (p : DecPhase) (s : State) :
    (setDecPhase p s).dec.pixLeft = s.dec.pixLeft := rfl
@[simp] theorem setDecPhase_dec_prev (p : DecPhase) (s : State) :
    (setDecPhase p s).dec.prev = s.dec.prev := rfl
@[simp] theorem setDecPhase_dec_run (p : DecPhase) (s : State) :
    (setDecPhase p s).dec.run = s.dec.run := rfl
@[simp] theorem setDecPhase_dec_cache (p : DecPhase) (s : State) :
    (setDecPhase p s).dec.cache = s.dec.cache := rfl
@[simp] theorem setDecPhase_dec_done (p : DecPhase) (s : State) :
    (setDecPhase p s).dec.done = s.dec.done := rfl
@[simp] theorem setDecPhase_dec_valid (p : DecPhase) (s : State) :
    (setDecPhase p s).dec.valid = s.dec.valid := rfl
@[simp] theorem setDecPhase_dec_fault (p : DecPhase) (s : State) :
    (setDecPhase p s).dec.fault = s.dec.fault := rfl
@[simp] theorem setDecPhase_pixSource (p : DecPhase) (s : State) :
    (setDecPhase p s).pixSource = s.pixSource := rfl
@[simp] theorem setDecPhase_byteSink (p : DecPhase) (s : State) :
    (setDecPhase p s).byteSink = s.byteSink := rfl
@[simp] theorem setDecPhase_byteSinkReady (p : DecPhase) (s : State) :
    (setDecPhase p s).byteSinkReady = s.byteSinkReady := rfl
@[simp] theorem setDecPhase_byteSource (p : DecPhase) (s : State) :
    (setDecPhase p s).byteSource = s.byteSource := rfl
@[simp] theorem setDecPhase_eos (p : DecPhase) (s : State) : (setDecPhase p s).eos = s.eos := rfl
@[simp] theorem setDecPhase_pixSink (p : DecPhase) (s : State) :
    (setDecPhase p s).pixSink = s.pixSink := rfl
@[simp] theorem setDecPhase_pixSinkReady (p : DecPhase) (s : State) :
    (setDecPhase p s).pixSinkReady = s.pixSinkReady := rfl
@[simp] theorem setDecPhase_active (p : DecPhase) (s : State) :
    (setDecPhase p s).active = s.active := rfl
@[simp] theorem setDecPhase_inputs (p : DecPhase) (s : State) :
    (setDecPhase p s).inputs = s.inputs := rfl
@[simp] theorem setDecPhase_deltaWrap (p : DecPhase) (s : State) :
    (setDecPhase p s).deltaWrap = s.deltaWrap := rfl

/-! ### `setDecRun` -/

@[simp] theorem setDecRun_enc (n : RunCount) (s : State) : (setDecRun n s).enc = s.enc := rfl
@[simp] theorem setDecRun_dec_phase (n : RunCount) (s : State) :
    (setDecRun n s).dec.phase = s.dec.phase := rfl
@[simp] theorem setDecRun_dec_hdr (n : RunCount) (s : State) :
    (setDecRun n s).dec.hdr = s.dec.hdr := rfl
@[simp] theorem setDecRun_dec_hdrValid (n : RunCount) (s : State) :
    (setDecRun n s).dec.hdrValid = s.dec.hdrValid := rfl
@[simp] theorem setDecRun_dec_pixLeft (n : RunCount) (s : State) :
    (setDecRun n s).dec.pixLeft = s.dec.pixLeft := rfl
@[simp] theorem setDecRun_dec_prev (n : RunCount) (s : State) :
    (setDecRun n s).dec.prev = s.dec.prev := rfl
@[simp] theorem setDecRun_dec_run (n : RunCount) (s : State) : (setDecRun n s).dec.run = n := rfl
@[simp] theorem setDecRun_dec_cache (n : RunCount) (s : State) :
    (setDecRun n s).dec.cache = s.dec.cache := rfl
@[simp] theorem setDecRun_dec_done (n : RunCount) (s : State) :
    (setDecRun n s).dec.done = s.dec.done := rfl
@[simp] theorem setDecRun_dec_valid (n : RunCount) (s : State) :
    (setDecRun n s).dec.valid = s.dec.valid := rfl
@[simp] theorem setDecRun_dec_fault (n : RunCount) (s : State) :
    (setDecRun n s).dec.fault = s.dec.fault := rfl
@[simp] theorem setDecRun_pixSource (n : RunCount) (s : State) :
    (setDecRun n s).pixSource = s.pixSource := rfl
@[simp] theorem setDecRun_byteSink (n : RunCount) (s : State) :
    (setDecRun n s).byteSink = s.byteSink := rfl
@[simp] theorem setDecRun_byteSinkReady (n : RunCount) (s : State) :
    (setDecRun n s).byteSinkReady = s.byteSinkReady := rfl
@[simp] theorem setDecRun_byteSource (n : RunCount) (s : State) :
    (setDecRun n s).byteSource = s.byteSource := rfl
@[simp] theorem setDecRun_eos (n : RunCount) (s : State) : (setDecRun n s).eos = s.eos := rfl
@[simp] theorem setDecRun_pixSink (n : RunCount) (s : State) :
    (setDecRun n s).pixSink = s.pixSink := rfl
@[simp] theorem setDecRun_pixSinkReady (n : RunCount) (s : State) :
    (setDecRun n s).pixSinkReady = s.pixSinkReady := rfl
@[simp] theorem setDecRun_active (n : RunCount) (s : State) :
    (setDecRun n s).active = s.active := rfl
@[simp] theorem setDecRun_inputs (n : RunCount) (s : State) :
    (setDecRun n s).inputs = s.inputs := rfl
@[simp] theorem setDecRun_deltaWrap (n : RunCount) (s : State) :
    (setDecRun n s).deltaWrap = s.deltaWrap := rfl

/-! ### `decStore` -/

@[simp] theorem decStore_enc (c : Rgb) (s : State) : (decStore c s).enc = s.enc := rfl
@[simp] theorem decStore_dec_phase (c : Rgb) (s : State) :
    (decStore c s).dec.phase = s.dec.phase := rfl
@[simp] theorem decStore_dec_hdr (c : Rgb) (s : State) : (decStore c s).dec.hdr = s.dec.hdr := rfl
@[simp] theorem decStore_dec_hdrValid (c : Rgb) (s : State) :
    (decStore c s).dec.hdrValid = s.dec.hdrValid := rfl
@[simp] theorem decStore_dec_pixLeft (c : Rgb) (s : State) :
    (decStore c s).dec.pixLeft = s.dec.pixLeft := rfl
@[simp] theorem decStore_dec_prev (c : Rgb) (s : State) :
    (decStore c s).dec.prev = s.dec.prev := rfl
@[simp] theorem decStore_dec_run (c : Rgb) (s : State) : (decStore c s).dec.run = s.dec.run := rfl
@[simp] theorem decStore_dec_cache (c : Rgb) (s : State) :
    (decStore c s).dec.cache = cacheStore s.dec.cache c := rfl
@[simp] theorem decStore_dec_done (c : Rgb) (s : State) :
    (decStore c s).dec.done = s.dec.done := rfl
@[simp] theorem decStore_dec_valid (c : Rgb) (s : State) :
    (decStore c s).dec.valid = s.dec.valid := rfl
@[simp] theorem decStore_dec_fault (c : Rgb) (s : State) :
    (decStore c s).dec.fault = s.dec.fault := rfl
@[simp] theorem decStore_pixSource (c : Rgb) (s : State) :
    (decStore c s).pixSource = s.pixSource := rfl
@[simp] theorem decStore_byteSink (c : Rgb) (s : State) :
    (decStore c s).byteSink = s.byteSink := rfl
@[simp] theorem decStore_byteSinkReady (c : Rgb) (s : State) :
    (decStore c s).byteSinkReady = s.byteSinkReady := rfl
@[simp] theorem decStore_byteSource (c : Rgb) (s : State) :
    (decStore c s).byteSource = s.byteSource := rfl
@[simp] theorem decStore_eos (c : Rgb) (s : State) : (decStore c s).eos = s.eos := rfl
@[simp] theorem decStore_pixSink (c : Rgb) (s : State) : (decStore c s).pixSink = s.pixSink := rfl
@[simp] theorem decStore_pixSinkReady (c : Rgb) (s : State) :
    (decStore c s).pixSinkReady = s.pixSinkReady := rfl
@[simp] theorem decStore_active (c : Rgb) (s : State) : (decStore c s).active = s.active := rfl
@[simp] theorem decStore_inputs (c : Rgb) (s : State) : (decStore c s).inputs = s.inputs := rfl
@[simp] theorem decStore_deltaWrap (c : Rgb) (s : State) :
    (decStore c s).deltaWrap = s.deltaWrap := rfl

/-! ### `setHeader` -/

@[simp] theorem setHeader_enc (h : Header) (s : State) : (setHeader h s).enc = s.enc := rfl
@[simp] theorem setHeader_dec_phase (h : Header) (s : State) :
    (setHeader h s).dec.phase = s.dec.phase := rfl
@[simp] theorem setHeader_dec_hdr (h : Header) (s : State) : (setHeader h s).dec.hdr = h := rfl
@[simp] theorem setHeader_dec_hdrValid (h : Header) (s : State) :
    (setHeader h s).dec.hdrValid = true := rfl
@[simp] theorem setHeader_dec_pixLeft (h : Header) (s : State) :
    (setHeader h s).dec.pixLeft = s.dec.pixLeft := rfl
@[simp] theorem setHeader_dec_prev (h : Header) (s : State) :
    (setHeader h s).dec.prev = s.dec.prev := rfl
@[simp] theorem setHeader_dec_run (h : Header) (s : State) :
    (setHeader h s).dec.run = s.dec.run := rfl
@[simp] theorem setHeader_dec_cache (h : Header) (s : State) :
    (setHeader h s).dec.cache = s.dec.cache := rfl
@[simp] theorem setHeader_dec_done (h : Header) (s : State) :
    (setHeader h s).dec.done = s.dec.done := rfl
@[simp] theorem setHeader_dec_valid (h : Header) (s : State) :
    (setHeader h s).dec.valid = s.dec.valid := rfl
@[simp] theorem setHeader_dec_fault (h : Header) (s : State) :
    (setHeader h s).dec.fault = s.dec.fault := rfl
@[simp] theorem setHeader_pixSource (h : Header) (s : State) :
    (setHeader h s).pixSource = s.pixSource := rfl
@[simp] theorem setHeader_byteSink (h : Header) (s : State) :
    (setHeader h s).byteSink = s.byteSink := rfl
@[simp] theorem setHeader_byteSinkReady (h : Header) (s : State) :
    (setHeader h s).byteSinkReady = s.byteSinkReady := rfl
@[simp] theorem setHeader_byteSource (h : Header) (s : State) :
    (setHeader h s).byteSource = s.byteSource := rfl
@[simp] theorem setHeader_eos (h : Header) (s : State) : (setHeader h s).eos = s.eos := rfl
@[simp] theorem setHeader_pixSink (h : Header) (s : State) :
    (setHeader h s).pixSink = s.pixSink := rfl
@[simp] theorem setHeader_pixSinkReady (h : Header) (s : State) :
    (setHeader h s).pixSinkReady = s.pixSinkReady := rfl
@[simp] theorem setHeader_active (h : Header) (s : State) : (setHeader h s).active = s.active := rfl
@[simp] theorem setHeader_inputs (h : Header) (s : State) : (setHeader h s).inputs = s.inputs := rfl
@[simp] theorem setHeader_deltaWrap (h : Header) (s : State) :
    (setHeader h s).deltaWrap = s.deltaWrap := rfl

/-! ### `enterPixels` -/

@[simp] theorem enterPixels_enc (h : Header) (s : State) : (enterPixels h s).enc = s.enc := rfl
@[simp] theorem enterPixels_dec_phase (h : Header) (s : State) :
    (enterPixels h s).dec.phase = if pixelCount h = 0 then .trailer else .pixels := rfl
@[simp] theorem enterPixels_dec_hdr (h : Header) (s : State) :
    (enterPixels h s).dec.hdr = s.dec.hdr := rfl
@[simp] theorem enterPixels_dec_hdrValid (h : Header) (s : State) :
    (enterPixels h s).dec.hdrValid = s.dec.hdrValid := rfl
@[simp] theorem enterPixels_dec_pixLeft (h : Header) (s : State) :
    (enterPixels h s).dec.pixLeft = pixelCount h := rfl
@[simp] theorem enterPixels_dec_prev (h : Header) (s : State) :
    (enterPixels h s).dec.prev = s.dec.prev := rfl
@[simp] theorem enterPixels_dec_run (h : Header) (s : State) :
    (enterPixels h s).dec.run = s.dec.run := rfl
@[simp] theorem enterPixels_dec_cache (h : Header) (s : State) :
    (enterPixels h s).dec.cache = s.dec.cache := rfl
@[simp] theorem enterPixels_dec_done (h : Header) (s : State) :
    (enterPixels h s).dec.done = s.dec.done := rfl
@[simp] theorem enterPixels_dec_valid (h : Header) (s : State) :
    (enterPixels h s).dec.valid = s.dec.valid := rfl
@[simp] theorem enterPixels_dec_fault (h : Header) (s : State) :
    (enterPixels h s).dec.fault = s.dec.fault := rfl
@[simp] theorem enterPixels_pixSource (h : Header) (s : State) :
    (enterPixels h s).pixSource = s.pixSource := rfl
@[simp] theorem enterPixels_byteSink (h : Header) (s : State) :
    (enterPixels h s).byteSink = s.byteSink := rfl
@[simp] theorem enterPixels_byteSinkReady (h : Header) (s : State) :
    (enterPixels h s).byteSinkReady = s.byteSinkReady := rfl
@[simp] theorem enterPixels_byteSource (h : Header) (s : State) :
    (enterPixels h s).byteSource = s.byteSource := rfl
@[simp] theorem enterPixels_eos (h : Header) (s : State) : (enterPixels h s).eos = s.eos := rfl
@[simp] theorem enterPixels_pixSink (h : Header) (s : State) :
    (enterPixels h s).pixSink = s.pixSink := rfl
@[simp] theorem enterPixels_pixSinkReady (h : Header) (s : State) :
    (enterPixels h s).pixSinkReady = s.pixSinkReady := rfl
@[simp] theorem enterPixels_active (h : Header) (s : State) :
    (enterPixels h s).active = s.active := rfl
@[simp] theorem enterPixels_inputs (h : Header) (s : State) :
    (enterPixels h s).inputs = s.inputs := rfl
@[simp] theorem enterPixels_deltaWrap (h : Header) (s : State) :
    (enterPixels h s).deltaWrap = s.deltaWrap := rfl

/-! ### `producePixel` -/

@[simp] theorem producePixel_enc (c : Rgb) (s : State) : (producePixel c s).enc = s.enc := rfl
@[simp] theorem producePixel_dec_phase (c : Rgb) (s : State) :
    (producePixel c s).dec.phase = if isLast s.dec.pixLeft then .trailer else s.dec.phase := rfl
@[simp] theorem producePixel_dec_hdr (c : Rgb) (s : State) :
    (producePixel c s).dec.hdr = s.dec.hdr := rfl
@[simp] theorem producePixel_dec_hdrValid (c : Rgb) (s : State) :
    (producePixel c s).dec.hdrValid = s.dec.hdrValid := rfl
@[simp] theorem producePixel_dec_pixLeft (c : Rgb) (s : State) :
    (producePixel c s).dec.pixLeft = s.dec.pixLeft - 1 := rfl
@[simp] theorem producePixel_dec_prev (c : Rgb) (s : State) :
    (producePixel c s).dec.prev = { c with a := s.dec.prev.a } := rfl
@[simp] theorem producePixel_dec_run (c : Rgb) (s : State) :
    (producePixel c s).dec.run = s.dec.run := rfl
@[simp] theorem producePixel_dec_cache (c : Rgb) (s : State) :
    (producePixel c s).dec.cache = s.dec.cache := rfl
@[simp] theorem producePixel_dec_done (c : Rgb) (s : State) :
    (producePixel c s).dec.done = s.dec.done := rfl
@[simp] theorem producePixel_dec_valid (c : Rgb) (s : State) :
    (producePixel c s).dec.valid = s.dec.valid := rfl
@[simp] theorem producePixel_dec_fault (c : Rgb) (s : State) :
    (producePixel c s).dec.fault = s.dec.fault := rfl
@[simp] theorem producePixel_pixSource (c : Rgb) (s : State) :
    (producePixel c s).pixSource = s.pixSource := rfl
@[simp] theorem producePixel_byteSink (c : Rgb) (s : State) :
    (producePixel c s).byteSink = s.byteSink := rfl
@[simp] theorem producePixel_byteSinkReady (c : Rgb) (s : State) :
    (producePixel c s).byteSinkReady = s.byteSinkReady := rfl
@[simp] theorem producePixel_byteSource (c : Rgb) (s : State) :
    (producePixel c s).byteSource = s.byteSource := rfl
@[simp] theorem producePixel_eos (c : Rgb) (s : State) : (producePixel c s).eos = s.eos := rfl
@[simp] theorem producePixel_pixSink (c : Rgb) (s : State) :
    (producePixel c s).pixSink =
      s.pixSink ++ [outPixel s.dec.hdr.channels { c with a := s.dec.prev.a }] := rfl
@[simp] theorem producePixel_pixSinkReady (c : Rgb) (s : State) :
    (producePixel c s).pixSinkReady = s.pixSinkReady := rfl
@[simp] theorem producePixel_active (c : Rgb) (s : State) :
    (producePixel c s).active = s.active := rfl
@[simp] theorem producePixel_inputs (c : Rgb) (s : State) :
    (producePixel c s).inputs = s.inputs := rfl
@[simp] theorem producePixel_deltaWrap (c : Rgb) (s : State) :
    (producePixel c s).deltaWrap = s.deltaWrap := rfl

/-! ### `decoderDone` -/

@[simp] theorem decoderDone_enc (v : Bool) (f : FaultCode) (s : State) :
    (decoderDone v f s).enc = s.enc := rfl
@[simp] theorem decoderDone_dec_phase (v : Bool) (f : FaultCode) (s : State) :
    (decoderDone v f s).dec.phase = .idle := rfl
@[simp] theorem decoderDone_dec_hdr (v : Bool) (f : FaultCode) (s : State) :
    (decoderDone v f s).dec.hdr = s.dec.hdr := rfl
@[simp] theorem decoderDone_dec_hdrValid (v : Bool) (f : FaultCode) (s : State) :
    (decoderDone v f s).dec.hdrValid = s.dec.hdrValid := rfl
@[simp] theorem decoderDone_dec_pixLeft (v : Bool) (f : FaultCode) (s : State) :
    (decoderDone v f s).dec.pixLeft = s.dec.pixLeft := rfl
@[simp] theorem decoderDone_dec_prev (v : Bool) (f : FaultCode) (s : State) :
    (decoderDone v f s).dec.prev = s.dec.prev := rfl
@[simp] theorem decoderDone_dec_run (v : Bool) (f : FaultCode) (s : State) :
    (decoderDone v f s).dec.run = s.dec.run := rfl
@[simp] theorem decoderDone_dec_cache (v : Bool) (f : FaultCode) (s : State) :
    (decoderDone v f s).dec.cache = s.dec.cache := rfl
@[simp] theorem decoderDone_dec_done (v : Bool) (f : FaultCode) (s : State) :
    (decoderDone v f s).dec.done = true := rfl
@[simp] theorem decoderDone_dec_valid (v : Bool) (f : FaultCode) (s : State) :
    (decoderDone v f s).dec.valid = v := rfl
@[simp] theorem decoderDone_dec_fault (v : Bool) (f : FaultCode) (s : State) :
    (decoderDone v f s).dec.fault = f.code := rfl
@[simp] theorem decoderDone_pixSource (v : Bool) (f : FaultCode) (s : State) :
    (decoderDone v f s).pixSource = s.pixSource := rfl
@[simp] theorem decoderDone_byteSink (v : Bool) (f : FaultCode) (s : State) :
    (decoderDone v f s).byteSink = s.byteSink := rfl
@[simp] theorem decoderDone_byteSinkReady (v : Bool) (f : FaultCode) (s : State) :
    (decoderDone v f s).byteSinkReady = s.byteSinkReady := rfl
@[simp] theorem decoderDone_byteSource (v : Bool) (f : FaultCode) (s : State) :
    (decoderDone v f s).byteSource = s.byteSource := rfl
@[simp] theorem decoderDone_eos (v : Bool) (f : FaultCode) (s : State) :
    (decoderDone v f s).eos = s.eos := rfl
@[simp] theorem decoderDone_pixSink (v : Bool) (f : FaultCode) (s : State) :
    (decoderDone v f s).pixSink = s.pixSink := rfl
@[simp] theorem decoderDone_pixSinkReady (v : Bool) (f : FaultCode) (s : State) :
    (decoderDone v f s).pixSinkReady = s.pixSinkReady := rfl
@[simp] theorem decoderDone_active (v : Bool) (f : FaultCode) (s : State) :
    (decoderDone v f s).active = s.active := rfl
@[simp] theorem decoderDone_inputs (v : Bool) (f : FaultCode) (s : State) :
    (decoderDone v f s).inputs = s.inputs := rfl
@[simp] theorem decoderDone_deltaWrap (v : Bool) (f : FaultCode) (s : State) :
    (decoderDone v f s).deltaWrap = s.deltaWrap := rfl

/-! ### `raiseFault` -/

@[simp] theorem raiseFault_enc (f : FaultCode) (s : State) : (raiseFault f s).enc = s.enc := rfl
@[simp] theorem raiseFault_dec_phase (f : FaultCode) (s : State) :
    (raiseFault f s).dec.phase = .idle := rfl
@[simp] theorem raiseFault_dec_hdr (f : FaultCode) (s : State) :
    (raiseFault f s).dec.hdr = s.dec.hdr := rfl
@[simp] theorem raiseFault_dec_hdrValid (f : FaultCode) (s : State) :
    (raiseFault f s).dec.hdrValid = s.dec.hdrValid := rfl
@[simp] theorem raiseFault_dec_pixLeft (f : FaultCode) (s : State) :
    (raiseFault f s).dec.pixLeft = s.dec.pixLeft := rfl
@[simp] theorem raiseFault_dec_prev (f : FaultCode) (s : State) :
    (raiseFault f s).dec.prev = s.dec.prev := rfl
@[simp] theorem raiseFault_dec_run (f : FaultCode) (s : State) :
    (raiseFault f s).dec.run = s.dec.run := rfl
@[simp] theorem raiseFault_dec_cache (f : FaultCode) (s : State) :
    (raiseFault f s).dec.cache = s.dec.cache := rfl
@[simp] theorem raiseFault_dec_done (f : FaultCode) (s : State) :
    (raiseFault f s).dec.done = true := rfl
@[simp] theorem raiseFault_dec_valid (f : FaultCode) (s : State) :
    (raiseFault f s).dec.valid = false := rfl
@[simp] theorem raiseFault_dec_fault (f : FaultCode) (s : State) :
    (raiseFault f s).dec.fault = f.code := rfl
@[simp] theorem raiseFault_pixSource (f : FaultCode) (s : State) :
    (raiseFault f s).pixSource = s.pixSource := rfl
@[simp] theorem raiseFault_byteSink (f : FaultCode) (s : State) :
    (raiseFault f s).byteSink = s.byteSink := rfl
@[simp] theorem raiseFault_byteSinkReady (f : FaultCode) (s : State) :
    (raiseFault f s).byteSinkReady = s.byteSinkReady := rfl
@[simp] theorem raiseFault_byteSource (f : FaultCode) (s : State) :
    (raiseFault f s).byteSource = s.byteSource := rfl
@[simp] theorem raiseFault_eos (f : FaultCode) (s : State) : (raiseFault f s).eos = s.eos := rfl
@[simp] theorem raiseFault_pixSink (f : FaultCode) (s : State) :
    (raiseFault f s).pixSink = s.pixSink := rfl
@[simp] theorem raiseFault_pixSinkReady (f : FaultCode) (s : State) :
    (raiseFault f s).pixSinkReady = s.pixSinkReady := rfl
@[simp] theorem raiseFault_active (f : FaultCode) (s : State) :
    (raiseFault f s).active = s.active := rfl
@[simp] theorem raiseFault_inputs (f : FaultCode) (s : State) :
    (raiseFault f s).inputs = s.inputs := rfl
@[simp] theorem raiseFault_deltaWrap (f : FaultCode) (s : State) :
    (raiseFault f s).deltaWrap = s.deltaWrap := rfl

/-! ### `hardwareReset` -/

@[simp] theorem hardwareReset_enc (s : State) : (hardwareReset s).enc = Encoder.reset := rfl
@[simp] theorem hardwareReset_dec (s : State) : (hardwareReset s).dec = Decoder.reset := rfl
@[simp] theorem hardwareReset_pixSource (s : State) :
    (hardwareReset s).pixSource = s.pixSource := rfl
@[simp] theorem hardwareReset_byteSink (s : State) : (hardwareReset s).byteSink = s.byteSink := rfl
@[simp] theorem hardwareReset_byteSinkReady (s : State) :
    (hardwareReset s).byteSinkReady = s.byteSinkReady := rfl
@[simp] theorem hardwareReset_byteSource (s : State) :
    (hardwareReset s).byteSource = s.byteSource := rfl
@[simp] theorem hardwareReset_eos (s : State) : (hardwareReset s).eos = s.eos := rfl
@[simp] theorem hardwareReset_pixSink (s : State) : (hardwareReset s).pixSink = s.pixSink := rfl
@[simp] theorem hardwareReset_pixSinkReady (s : State) :
    (hardwareReset s).pixSinkReady = s.pixSinkReady := rfl
@[simp] theorem hardwareReset_active (s : State) : (hardwareReset s).active = s.active := rfl
@[simp] theorem hardwareReset_inputs (s : State) : (hardwareReset s).inputs = s.inputs := rfl
@[simp] theorem hardwareReset_deltaWrap (s : State) :
    (hardwareReset s).deltaWrap = s.deltaWrap := rfl

end Sys2Proof.Machine
end

