-- ==== Sys2Proof/Laws/Ops.lean ====
section
/-! SUPPORT. What each shared operation can do, said once: if it answers a next state, then this one and
under these conditions. -/

namespace Sys2Proof.Machine

/-! ### The encoder -/

/-- An operation of the encoder that completes was selected for the offered pixel. -/
theorem encoderOperation_next {i : Instr} {u : Pixel → State → State} {s t : State}
    (h : encoderOperation i u s = .next t) :
    ∃ p, offeredPixel s = some p ∧ issued s = some i ∧ s.enc.pixLeft ≠ 0 ∧
      t = retirePixel p (u p s) := by
  unfold encoderOperation at h
  split at h
  · cases h
  · rename_i p hp
    split at h
    · split at h
      · cases h
      · cases h
        exact ⟨p, hp, by assumption, by assumption, rfl⟩
    · cases h

/-- An operation of the encoder completes when the muxer selects it. -/
theorem encoderOperation_of_issued {i : Instr} {u : Pixel → State → State} {s : State} {p : Pixel}
    (hp : offeredPixel s = some p) (hi : issued s = some i) (hl : s.enc.pixLeft ≠ 0) :
    encoderOperation i u s = .next (retirePixel p (u p s)) := by
  rw [encoderOperation, hp]
  exact (if_pos hi).trans (if_neg hl)

/-- A framing step of the encoder that completes was issued. -/
theorem encoderFraming_next {i : Instr} {u : State → State} {s t : State}
    (h : encoderFraming i u s = .next t) : issued s = some i ∧ t = u s := by
  unfold encoderFraming at h
  split at h
  · cases h
    exact ⟨by assumption, rfl⟩
  · cases h

/-- What the encoder issues for a pixel comes from the muxer. -/
theorem issued_pixels {s : State} {p : Pixel} (hph : s.enc.phase = .pixels)
    (hp : offeredPixel s = some p) : issued s = muxer s.deltaWrap s.enc p.toRgb := by
  simp [issued, hph, hp]

/-- What the encoder can issue, by phase. -/
theorem issued_cases {s : State} {i : Instr} (h : issued s = some i) :
    (s.enc.phase = .header ∧
      i = .header s.enc.cfg.width s.enc.cfg.height s.enc.cfg.channels s.enc.cfg.colorspace) ∨
    (s.enc.phase = .pixels ∧ ∃ p, offeredPixel s = some p ∧
      muxer s.deltaWrap s.enc p.toRgb = some i) ∨
    (s.enc.phase = .trailer ∧ i = .endMarker) := by
  unfold issued at h
  split at h
  · cases h
  · exact .inl ⟨by assumption, (Option.some.inj h).symm⟩
  · obtain ⟨p, hp, hm⟩ := Option.bind_eq_some_iff.mp h
    exact .inr (.inl ⟨by assumption, p, hp, hm⟩)
  · exact .inr (.inr ⟨by assumption, (Option.some.inj h).symm⟩)

/-- The three kinds of operation the muxer can select (43 R204). -/
theorem muxer_cases {wrap : Bool} {e : Encoder} {c : Rgb} {i : Instr} (h : muxer wrap e c = some i) :
    (eqPrev e.prev.toRgb c = true ∧ flushes e.run e.pixLeft = true ∧ i = .run (runLength e.run)) ∨
    (eqPrev e.prev.toRgb c = false ∧ cacheHit e.cache c = true ∧ i = .index (hashSlot c)) ∨
    (eqPrev e.prev.toRgb c = false ∧ cacheHit e.cache c = false ∧
      i = literalOf wrap e.prev.toRgb c) := by
  unfold muxer at h
  split at h
  · split at h
    · exact .inl ⟨by assumption, by assumption, (Option.some.inj h).symm⟩
    · cases h
  · split at h
    · exact .inr (.inl ⟨Bool.eq_false_of_not_eq_true ‹¬eqPrev _ _ = true›, by assumption,
        (Option.some.inj h).symm⟩)
    · exact .inr (.inr ⟨Bool.eq_false_of_not_eq_true ‹¬eqPrev _ _ = true›,
        Bool.eq_false_of_not_eq_true ‹¬cacheHit _ _ = true›, (Option.some.inj h).symm⟩)

/-- A pixel for which the muxer selects nothing extends a run that is not flushed (41 R162). -/
theorem muxer_none {wrap : Bool} {e : Encoder} {c : Rgb} (h : muxer wrap e c = none) :
    eqPrev e.prev.toRgb c = true ∧ flushes e.run e.pixLeft = false := by
  unfold muxer at h
  split at h
  · split at h
    · cases h
    · exact ⟨by assumption, Bool.eq_false_of_not_eq_true ‹¬flushes _ _ = true›⟩
  · split at h <;> cases h

/-- The run-extending step: the encoder waits, or consumes one pixel and sends nothing. -/
theorem extendRun_next {s t : State} (h : extendRun s = .next t) :
    t = s ∨ ∃ p, s.enc.phase = .pixels ∧ offeredPixel s = some p ∧ s.enc.pixLeft ≠ 0 ∧
      t = retirePixel p (setEncRun (BitVec.ofNat 6 (runLength s.enc.run)) s) := by
  unfold extendRun at h
  split at h
  · split at h
    · cases h
      exact .inl rfl
    · rename_i p hp
      split at h
      · cases h
      · cases h
        exact .inr ⟨p, by assumption, hp, by assumption, rfl⟩
  · cases h
    exact .inl rfl

/-- The encoder's step: it waits, performs what it issues, or extends a run. -/
theorem encoderStep_next {s t : State} (h : encoderStep s = .next t) :
    t = s ∨ (∃ i, issued s = some i ∧ s.byteSinkReady = true ∧ exec i s = .next t) ∨
      (issued s = none ∧ extendRun s = .next t) := by
  unfold encoderStep at h
  split at h
  · split at h
    · exact .inr (.inl ⟨_, by assumption, by assumption, h⟩)
    · cases h
      exact .inl rfl
  · exact .inr (.inr ⟨by assumption, h⟩)

/-! ### The decoder -/

/-- An iteration that takes a tag and completes was enabled. -/
theorem decoderIteration_next {n : Nat} {u : State → State} {c : Rgb} {s t : State}
    (h : decoderIteration n u c s = .next t) :
    s.dec.phase = .pixels ∧ s.dec.run = 0 ∧ s.dec.pixLeft ≠ 0 ∧
      t = producePixel c (u (takeBytes n s)) := by
  unfold decoderIteration at h
  split at h
  · rename_i hen
    split at h
    · cases h
    · cases h
      exact ⟨hen.1, hen.2, by assumption, rfl⟩
  · cases h

/-- An iteration that takes a tag completes when it is enabled. -/
theorem decoderIteration_of_enabled {n : Nat} {u : State → State} {c : Rgb} {s : State}
    (hp : s.dec.phase = .pixels) (hr : s.dec.run = 0) (hl : s.dec.pixLeft ≠ 0) :
    decoderIteration n u c s = .next (producePixel c (u (takeBytes n s))) := by
  exact (if_pos ⟨hp, hr⟩).trans (if_neg hl)

/-- The header parse, by its channel count. -/
theorem decoderHeader_next {h : Header} {s t : State} (hn : decoderHeader h s = .next t) :
    s.dec.phase = .header ∧
      ((channelsOk h.channels = true ∧ t = enterPixels h (setHeader h (takeBytes 10 s))) ∨
        (channelsOk h.channels = false ∧
          t = raiseFault .badChannels (setHeader h (takeBytes 10 s)))) := by
  unfold decoderHeader at hn
  split at hn
  · split at hn
    · cases hn
      exact ⟨by assumption, .inl ⟨by assumption, rfl⟩⟩
    · cases hn
      exact ⟨by assumption, .inr ⟨Bool.eq_false_of_not_eq_true ‹¬channelsOk _ = true›, rfl⟩⟩
  · cases hn

/-- The end of a pass whose marker matched. -/
theorem decoderEnd_next {s t : State} (h : decoderEnd s = .next t) :
    s.dec.phase = .trailer ∧ t = decoderDone true .none (takeBytes 8 s) := by
  unfold decoderEnd at h
  split at h
  · cases h
    exact ⟨by assumption, rfl⟩
  · cases h

/-- The reserved tag. -/
theorem decoderReserved_next {s t : State} (h : decoderReserved s = .next t) :
    s.dec.phase = .pixels ∧ s.dec.run = 0 ∧ s.dec.pixLeft ≠ 0 ∧
      t = raiseFault .reservedTag (takeBytes 1 s) := by
  unfold decoderReserved at h
  split at h
  · rename_i hen
    split at h
    · cases h
    · cases h
      exact ⟨hen.1, hen.2, by assumption, rfl⟩
  · cases h

/-- Bytes that are no element end the pass, or are waited for; the machine never stops on them. -/
theorem fetchFault_next {e : DecodeError} {s t : State} (h : fetchFault e s = .next t) :
    (e = .truncated ∧ s.eos = false ∧ t = s) ∨
    (e = .truncated ∧ s.eos = true ∧ t = raiseFault .truncated (takeAllBytes s)) ∨
    (e = .badMagic ∧ t = raiseFault .badMagic (takeBytes 4 s)) ∨
    (e = .badEndMarker ∧ t = decoderDone false .badEndMarker (takeBytes 8 s)) := by
  cases e with
  | truncated =>
    simp only [fetchFault] at h
    split at h <;> cases h
    · exact .inr (.inl ⟨rfl, by assumption, rfl⟩)
    · exact .inl ⟨rfl, Bool.eq_false_of_not_eq_true ‹¬s.eos = true›, rfl⟩
  | badMagic =>
    cases h
    exact .inr (.inr (.inl ⟨rfl, rfl⟩))
  | badEndMarker =>
    cases h
    exact .inr (.inr (.inr ⟨rfl, rfl⟩))

/-- A step that fetches: it waits for the pixel sink, executes what it fetched, or meets bytes that are
no element. -/
theorem fetchAndExec_next {p : Position} {s t : State} (h : fetchAndExec p s = .next t) :
    (∃ i rest, decode p s.byteSource = .ok (i, rest) ∧
      ((producesPixel i = true ∧ s.pixSinkReady = false ∧ t = s) ∨ exec i s = .next t)) ∨
    (∃ e, decode p s.byteSource = .error e ∧ fetchFault e s = .next t) := by
  unfold fetchAndExec at h
  split at h
  · rename_i i rest hd
    split at h
    · rename_i hw
      cases h
      refine .inl ⟨i, rest, hd, .inl ⟨?_, ?_, rfl⟩⟩ <;> simp_all
    · exact .inl ⟨i, rest, hd, .inr h⟩
  · exact .inr ⟨_, by assumption, h⟩

/-- The decoder's step in PIXELS: an iteration that takes a tag, a run-pending one, or a wait. -/
theorem pixelIteration_next {s t : State} (h : pixelIteration s = .next t) :
    s.dec.pixLeft ≠ 0 ∧
      ((s.dec.run = 0 ∧ fetchAndExec .operation s = .next t) ∨
        (s.dec.run ≠ 0 ∧ s.pixSinkReady = true ∧ t = runPending s) ∨
        (s.dec.run ≠ 0 ∧ s.pixSinkReady = false ∧ t = s)) := by
  unfold pixelIteration at h
  split at h
  · cases h
  · refine ⟨by assumption, ?_⟩
    split at h
    · exact .inl ⟨by assumption, h⟩
    · split at h <;> cases h
      · exact .inr (.inl ⟨by assumption, by assumption, rfl⟩)
      · exact .inr (.inr ⟨by assumption, Bool.eq_false_of_not_eq_true ‹¬s.pixSinkReady = true›, rfl⟩)

/-! ### The environment and the step -/

/-- START of the encoder, taken or ignored. -/
theorem startEncoder_next {cfg : Header} {s t : State} (h : startEncoder cfg s = .next t) :
    (s.enc.phase = .idle ∧ startOk cfg = true ∧ t = encoderStart cfg s) ∨
      (s.enc.phase ≠ .idle ∧ t = s) := by
  unfold startEncoder at h
  split at h
  · split at h
    · cases h
      exact .inl ⟨by assumption, by assumption, rfl⟩
    · cases h
  · cases h
    exact .inr ⟨by assumption, rfl⟩

/-- START of the decoder, taken or ignored. -/
theorem startDecoder_next {s t : State} (h : startDecoder s = .next t) :
    (s.dec.phase = .idle ∧ t = decoderStart s) ∨ (s.dec.phase ≠ .idle ∧ t = s) := by
  unfold startDecoder at h
  split at h <;> cases h
  · exact .inl ⟨by assumption, rfl⟩
  · exact .inr ⟨by assumption, rfl⟩

/-- With no input pending the machine takes the active block's step. -/
theorem step_of_no_input {s : State} (h : s.inputs = []) : step s = blockStep s := by
  simp [step, machineStep, h]

/-- A pending input lands first. -/
theorem step_of_input {s : State} {e : Input} {rest : List Input} (h : s.inputs = e :: rest) :
    step s = applyInput e { s with inputs := rest } := by
  simp [step, machineStep, h]

/-- The two kinds of step. -/
theorem step_cases {s t : State} (h : step s = .next t) :
    (∃ e rest, s.inputs = e :: rest ∧ applyInput e { s with inputs := rest } = .next t) ∨
    (s.inputs = [] ∧ s.active = .encoder ∧ encoderStep s = .next t) ∨
    (s.inputs = [] ∧ s.active = .decoder ∧ decoderStep s = .next t) := by
  unfold step machineStep at h
  split at h
  · exact .inl ⟨_, _, by assumption, h⟩
  · unfold blockStep at h
    split at h
    · exact .inr (.inl ⟨by assumption, by assumption, h⟩)
    · exact .inr (.inr ⟨by assumption, by assumption, h⟩)

end Sys2Proof.Machine
end

