-- ==== Sys2Proof/Laws/PerInstr.lean ====
section
/-! SUPPORT. Per-instruction families: the number of bytes of an element's encoding (spec 30 R91 to R98,
R101). -/

namespace Sys2Proof.Laws

/-- The encoding of an element has as many bytes as its format says. -/
def EncodedLength.Statement (i : Instr) : Prop := (encode i).length = i.length

theorem EncodedLength.header (w h : Dim) (c s : Byte) : EncodedLength.Statement (.header w h c s) := rfl

theorem EncodedLength.index (slot : Slot) : EncodedLength.Statement (.index slot) := rfl

theorem EncodedLength.diff (dr dg db : Int) : EncodedLength.Statement (.diff dr dg db) := rfl

theorem EncodedLength.luma (dg drg dbg : Int) : EncodedLength.Statement (.luma dg drg dbg) := rfl

theorem EncodedLength.run (n : Nat) : EncodedLength.Statement (.run n) := rfl

theorem EncodedLength.rgb (r g b : Byte) : EncodedLength.Statement (.rgb r g b) := rfl

theorem EncodedLength.reservedFf : EncodedLength.Statement .reservedFf := rfl

theorem EncodedLength.endMarker : EncodedLength.Statement .endMarker := rfl

end Sys2Proof.Laws
end

