-- ==== Sys2Proof/Tests/Slice0.lean ====
section
/-! SUPPORT. Tests. Expected results come from spec/95_test_vectors.md, the encoding tables of
spec/30_encoding.md and the examples in the rules, named at each group; then one witness for every
statement that has hypotheses. -/

namespace Sys2Proof.Tests

open Sys2Proof.Machine

/-! ### Well-formedness: an ill-formed term for each check (30 R104) -/

theorem test_wf_refuses_diff_red : (Instr.diff 2 0 0).wf = false := by decide
theorem test_wf_refuses_diff_green : (Instr.diff 0 (-3) 0).wf = false := by decide
theorem test_wf_refuses_diff_blue : (Instr.diff 0 0 2).wf = false := by decide
theorem test_wf_refuses_luma_green : (Instr.luma 32 0 0).wf = false := by decide
theorem test_wf_refuses_luma_red : (Instr.luma 0 8 0).wf = false := by decide
theorem test_wf_refuses_luma_blue : (Instr.luma 0 0 (-9)).wf = false := by decide
theorem test_wf_refuses_run_zero : (Instr.run 0).wf = false := by decide
theorem test_wf_refuses_run_long : (Instr.run 63).wf = false := by decide
theorem test_wf_accepts_bounds :
    (Instr.diff (-2) 1 1).wf = true ∧ (Instr.luma (-32) 7 (-8)).wf = true ∧ (Instr.run 62).wf = true := by
  decide

/-! ### Decoding: words written out bit by bit from 30 R91 to R98, R101 -/

/-- What the decoder reads at a position. -/
def read (p : Position) (bs : List Byte) : Option (Instr × List Byte) :=
  match decode p bs with
  | .ok r => some r
  | .error _ => none

theorem test_decode_index : read .operation [0b00110101] = some (.index 53, []) := by decide
theorem test_decode_diff : read .operation [0b01001110] = some (.diff (-2) 1 0, []) := by decide
theorem test_decode_luma : read .operation [0b10100000, 0b11110000] = some (.luma 0 7 (-8), []) := by
  decide
theorem test_decode_run : read .operation [0b11111101, 7] = some (.run 62, [7]) := by decide
theorem test_decode_rgb : read .operation [0b11111110, 1, 2, 3, 4] = some (.rgb 1 2 3, [4]) := by decide
theorem test_decode_reserved : read .operation [0b11111111] = some (.reservedFf, []) := by decide
theorem test_decode_header :
    read .start [0x71, 0x6F, 0x69, 0x66, 1, 2, 3, 4, 0, 0, 0, 1, 4, 1] =
      some (.header 0x01020304 1 4 1, []) := by decide
theorem test_decode_end : read .trailer [0, 0, 0, 0, 0, 0, 0, 1, 5] = some (.endMarker, [5]) := by decide
theorem test_decode_rejects_short_luma : decode .operation [0x80] = .error .truncated := rfl
theorem test_decode_rejects_magic : decode .start [0x71, 0x6F, 0x69, 0x67] = .error .badMagic := rfl
theorem test_decode_rejects_marker :
    decode .trailer [0, 0, 0, 0, 0, 0, 0, 0] = .error .badEndMarker := rfl

/-! ### The opcode table's rows, and each as the first instruction after reset -/

/-- The next state of an outcome. -/
def after (r : Result) : Option State :=
  match r with
  | .next t => some t
  | .fault _ => none
  | .refused _ => none

theorem test_table_header :
    decodeTableWord 32 0x716F6966 = some (.header 0 0 0 0) ∧
      decodeTableWord 112 0x716F6966 = some (.header 0 0 0 0) := by decide
theorem test_table_end : decodeTableWord 64 1 = some .endMarker := by decide
theorem test_table_operations :
    [decodeTableWord 8 0x00, decodeTableWord 8 0x40, decodeTableWord 16 0x80, decodeTableWord 8 0xC0,
      decodeTableWord 32 0xFE, decodeTableWord 8 0xFF] =
      [some (.index 0), some (.diff (-2) (-2) (-2)), some (.luma (-32) (-8) (-8)), some (.run 1),
        some (.rgb 0 0 0), some .reservedFf] := by decide
theorem test_fetch_run_after_reset :
    (after (step (State.reset.withFetchWord 8 0xC0))).map (fun t => t.pixSink.length) = some 1 := by
  decide
theorem test_fetch_header_after_reset :
    (after (step (State.reset.withFetchWord 112 (0x716F6966 + 3 * 2 ^ 104)))).map
      (fun t => (t.dec.hdrValid, t.dec.hdr.channels, t.dec.phase)) = some (true, 3, .trailer) := by
  decide
theorem test_fetch_end_after_reset :
    (after (step (State.reset.withFetchWord 64 1))).map (fun t => (t.dec.valid, t.dec.fault)) =
      some (true, 0) := by decide

/-! ### Small states -/

/-- A colour. -/
def rgb (r g b : Nat) : Rgb :=
  { r := BitVec.ofNat 8 r, g := BitVec.ofNat 8 g, b := BitVec.ofNat 8 b }

/-- A word of a pixel port. -/
def px (r g b a : Nat) : PixelWord := pixelWord { rgb r g b with a := BitVec.ofNat 8 a }

/-- An encoder in the pixel phase (3 channels) with one pixel on offer. -/
def encState (prev : Rgb) (run : RunCount) (stored : List Rgb) (left : Count) (w : PixelWord) : State :=
  { State.reset with
    enc := { Encoder.reset with
      phase := .pixels, pixLeft := left, run := run, prev := { prev with a := 255 }
      cfg := { width := 9, height := 9, channels := 3, colorspace := 0 }
      cache := stored.foldl cacheStore [] }
    pixSource := [w] }

/-- A decoder in a phase, with bytes on offer. -/
def decState (phase : DecPhase) (prev : Rgb) (stored : List Rgb) (left : Count) (bs : List Byte) :
    State :=
  { State.reset with
    dec := { Decoder.reset with
      phase := phase, pixLeft := left, prev := { prev with a := 255 }
      hdrValid := decide (phase = .pixels ∨ phase = .trailer)
      hdr := { width := 9, height := 9, channels := 3, colorspace := 0 }
      cache := stored.foldl cacheStore [] }
    byteSource := bs
    active := .decoder }

/-- The bytes an encoder step sends, the run counter and the slots it leaves listed. -/
def encResult (s : State) : Option (List Byte × RunCount × List Nat) :=
  (after (step s)).map (fun t => (t.byteSink.map OutByte.data, t.enc.run, t.enc.cache.map Prod.fst))

/-- The pixels a decoder step hands over, the run counter and the slots it leaves listed. -/
def decResult (s : State) : Option (List PixelWord × RunCount × List Nat) :=
  (after (step s)).map (fun t => (t.pixSink.map OutPixel.data, t.dec.run, t.dec.cache.map Prod.fst))

/-! ### Encoder steps (vectors of 95_test_vectors Part 2) -/

/-- V-M3. -/
theorem test_enc_diff :
    encResult (encState (rgb 100 100 100) 0 [] 5 (px 98 101 100 0)) = some ([0x4E], 0, [16]) := by
  decide
/-- V-M11. -/
theorem test_enc_luma :
    encResult (encState (rgb 100 100 100) 0 [] 5 (px 107 100 92 0)) = some ([0xA0, 0xF0], 0, [46]) := by
  decide
/-- V-RUN10. -/
theorem test_enc_rgb_breaks_run :
    encResult (encState (rgb 9 9 9) 2 [] 1 (px 200 9 10 0)) =
      some ([0xC1, 0xFE, 0xC8, 0x09, 0x0A], 0, [0]) := by decide
/-- V-I2. -/
theorem test_enc_index :
    encResult (encState (rgb 1 1 1) 5 [rgb 10 20 30] 5 (px 10 20 30 0)) =
      some ([0xC4, 0x09], 0, [9]) := by decide
/-- V-RUN2. -/
theorem test_enc_run_limit :
    encResult (encState (rgb 9 9 9) 61 [] 5 (px 9 9 9 7)) = some ([0xFD], 0, []) := by decide
/-- V-W1, both values of DELTA_WRAP. -/
theorem test_enc_delta_wrap :
    encResult (encState (rgb 255 255 254) 0 [] 5 (px 0 0 255 0)) =
        some ([0xFE, 0x00, 0x00, 0xFF], 0, [46]) ∧
      encResult { encState (rgb 255 255 254) 0 [] 5 (px 0 0 255 0) with deltaWrap := true } =
        some ([0x7F], 0, [46]) := by decide
/-- V-H2. -/
theorem test_enc_header :
    (after (step { State.reset with enc := { Encoder.reset with
      phase := .header, cfg := { width := 0x01020304, height := 1, channels := 4, colorspace := 1 } } })).map
        (fun t => (t.byteSink.map OutByte.data, t.enc.phase)) =
      some ([0x71, 0x6F, 0x69, 0x66, 1, 2, 3, 4, 0, 0, 0, 1, 4, 1], .pixels) := by decide
/-- 40 R137. -/
theorem test_enc_end :
    (after (step { State.reset with enc := { Encoder.reset with phase := .trailer } })).map
        (fun t => (t.byteSink.map OutByte.last, t.enc.done, t.enc.ok)) =
      some ([false, false, false, false, false, false, false, true], true, true) := by decide

/-! ### Decoder steps (vectors of 95_test_vectors Part 4 and the rules' corner cases) -/

/-- V-DEC6: 40 subtracts 2 from 1 modulo 256. -/
theorem test_dec_diff :
    decResult (decState .pixels (rgb 1 1 1) [] 5 [0x40]) = some ([0xFFFFFFFF], 0, [38]) := by decide
/-- V-DEC8: 80 00 from (0, 0, 1). -/
theorem test_dec_luma :
    decResult (decState .pixels (rgb 0 0 1) [] 5 [0x80, 0x00]) = some ([0xD8E0D9FF], 0, [12]) := by
  decide
/-- 46 R272. -/
theorem test_dec_rgb :
    decResult (decState .pixels (rgb 0 0 0) [] 5 [0xFE, 0x0A, 0x14, 0x1E]) =
      some ([0x0A141EFF], 0, [9]) := by decide
/-- 46 R271. -/
theorem test_dec_index :
    decResult (decState .pixels (rgb 0 0 0) [rgb 10 20 30] 5 [0x09]) = some ([0x0A141EFF], 0, [9]) := by
  decide
/-- P5 iteration 4. -/
theorem test_dec_run :
    decResult (decState .pixels (rgb 10 20 30) [] 5 [0xC1]) = some ([0x0A141EFF], 1, []) := by decide
/-- 45 R249, 46 R276: three bytes with 3 channels, four with a = 255 with 4 channels. -/
theorem test_dec_alpha :
    let s := decState .pixels (rgb 10 20 30) [] 5 [0xC1]
    (after (step s)).map (fun t => t.pixSink.map OutPixel.bytes) = some [[0x0A, 0x14, 0x1E]] ∧
      (after (step { s with dec := { s.dec with hdr := { s.dec.hdr with channels := 4 } } })).map
        (fun t => t.pixSink.map OutPixel.bytes) = some [[0x0A, 0x14, 0x1E, 0xFF]] := by decide
/-- P6: the reserved tag. -/
theorem test_dec_reserved :
    (after (step (decState .pixels (rgb 1 2 3) [] 2 [0xFF, 0x00]))).map
        (fun t => (t.byteSource, t.dec.fault, t.dec.done, t.dec.phase)) =
      some ([0x00], 4, true, .idle) := by decide
/-- V-DEC11. -/
theorem test_dec_bad_channels :
    (after (step (decState .header (rgb 0 0 0) [] 0 [0, 0, 0, 2, 0, 0, 0, 1, 5, 0]))).map
        (fun t => (t.dec.hdr.width, t.dec.hdr.channels, t.dec.hdrValid, t.dec.fault)) =
      some (2, 5, true, 5) := by decide
/-- V-DEC3a. -/
theorem test_dec_bad_marker :
    (after (step (decState .trailer (rgb 0 0 0) [] 0 [0, 0, 0, 0, 0, 0, 0, 0]))).map
        (fun t => (t.byteSource, t.dec.fault, t.dec.valid, t.dec.done)) =
      some ([], 2, false, true) := by decide

/-! ### Witnesses: states and operands that meet the hypotheses of each statement -/

theorem witness_HardwareResetLeavesIdle :
    (encState (rgb 1 2 3) 0 [] 5 (px 1 2 3 0)).enc.phase ≠ .idle ∧
      ({ encState (rgb 1 2 3) 0 [] 5 (px 1 2 3 0) with inputs := [.reset] }).inputs = .reset :: [] ∧
      State.reset.inputs = [] ∧ State.reset.enc.phase = .idle ∧ State.reset.dec.phase = .idle := by
  decide

/-- Each clause: the smallest image; a pass that runs; zero area; a channel count of 5. -/
theorem witness_EncoderStartInitialisesThePass :
    (State.reset.enc.phase = .idle ∧ 1 ≤ (1 : Dim).toNat * (1 : Dim).toNat ∧ ((3 : Byte) = 3 ∨ (3 : Byte) = 4)) ∧
      (encState (rgb 0 0 0) 0 [] 5 0).enc.phase ≠ .idle ∧
      (0 : Dim).toNat * (7 : Dim).toNat = 0 ∧ ((5 : Byte) ≠ 3 ∧ (5 : Byte) ≠ 4) := by decide

theorem witness_DecoderStartInitialisesThePass :
    State.reset.dec.phase = .idle ∧ (decState .magic (rgb 0 0 0) [] 0 []).dec.phase ≠ .idle := by decide

/-- Each clause at its own state. -/
theorem witness_WaitingChangesNothing :
    (let s := { encState (rgb 0 0 0) 0 [] 5 0 with pixSource := [] }
     s.active = .encoder ∧ s.enc.phase = .pixels ∧ s.pixSource = []) ∧
    (let s := { encState (rgb 9 9 9) 61 [] 5 (px 9 9 9 0) with byteSinkReady := false }
     s.active = .encoder ∧ s.byteSinkReady = false ∧ issued s = some (.run 62)) ∧
    (let s := decState .magic (rgb 0 0 0) [] 0 [0x71, 0x6F, 0x69]
     s.active = .decoder ∧ s.dec.phase = .magic ∧ s.byteSource.length < 4 ∧ s.eos = false) ∧
    (let s := { decState .pixels (rgb 0 0 0) [] 1 [0xC0] with pixSinkReady := false }
     s.active = .decoder ∧ s.dec.phase = .pixels ∧ s.dec.pixLeft ≠ 0 ∧ s.pixSinkReady = false ∧
       read .operation s.byteSource = some (.run 1, []) ∧ producesPixel (.run 1) = true) ∧
    (State.reset.active = .encoder ∧ State.reset.enc.phase = .idle) ∧
    (let s := decState .idle (rgb 0 0 0) [] 0 []
     s.active = .decoder ∧ s.dec.phase = .idle) := by decide

/-- The pixel phase at its last pixel, with an operation that waits for nothing. -/
theorem witness_StepExecutesTheFetchedElement :
    let s := decState .pixels (rgb 0 0 0) [] 1 [0xC0]
    s.inputs = [] ∧ s.active = .decoder ∧ fetchPosition s.dec.phase = some .operation ∧
      s.dec.pixLeft ≠ 0 ∧ s.dec.run = 0 ∧ s.pixSinkReady = true ∧
      read .operation s.byteSource = some (.run 1, []) := by decide

theorem witness_StepExecutesTheIssuedElement :
    let s := encState (rgb 9 9 9) 0 [] 1 (px 9 9 9 0)
    s.inputs = [] ∧ s.active = .encoder ∧ s.byteSinkReady = true ∧ issued s = some (.run 1) := by decide

theorem witness_PlacedTableWordRunsNext : decodeTableWord 16 0xFFBF = some (.luma 31 7 7) := by decide

theorem witness_DecodeInvertsEncode :
    (Instr.luma (-32) 7 (-8)).wf = true ∧ (Instr.diff (-2) 1 0).wf = true ∧ (Instr.run 62).wf = true ∧
      (Instr.run 1).wf = true := by decide

theorem witness_EncodeInvertsDecode :
    read .operation [0xFD] = some (.run 62, []) ∧
      read .afterMagic [0, 0, 0, 2, 0, 0, 0, 1, 3, 0, 9] = some (.header 2 1 3 0, [9]) := by decide

/-- The rule's colliding colours, hash(64, 0, 0) = hash(0, 0, 0). -/
theorem witness_HashIgnoresTopBits :
    let c := rgb 64 0 0; let d := rgb 0 0 0
    c ≠ d ∧ c.r.toNat % 64 = d.r.toNat % 64 ∧ c.g.toNat % 64 = d.g.toNat % 64 ∧
      c.b.toNat % 64 = d.b.toNat % 64 := by decide

theorem witness_CacheReadAfterStore :
    Memory.wf [(9, rgbWord (rgb 74 20 30)), (63, 1)] = true ∧ hashSlot (rgb 10 20 30) = 9 := by decide

theorem witness_OnlyBlackHitsAnUnwrittenSlot :
    ∀ w, ((hashSlot (rgb 0 0 0)).toNat, w) ∉ ([] : Memory) := by simp

theorem witness_EncoderSendsHeader :
    let s := { State.reset with enc := { Encoder.reset with phase := .header } }
    s.active = .encoder ∧ s.enc.phase = .header := by decide

/-- The limit 62, the last pixel, and a run of 61 that goes on. -/
theorem witness_EncoderExtendsRun :
    (let s := encState (rgb 9 9 9) 61 [] 5 (px 9 9 9 7)
     s.active = .encoder ∧ s.enc.phase = .pixels ∧ s.enc.pixLeft ≠ 0 ∧ s.pixSource = px 9 9 9 7 :: [] ∧
       wordPixelRgb (px 9 9 9 7) = s.enc.prev.toRgb ∧ s.enc.run.toNat + 1 = 62) ∧
    (encState (rgb 9 9 9) 0 [] 1 (px 9 9 9 7)).enc.pixLeft = 1 ∧
    (let s := encState (rgb 9 9 9) 60 [] 2 (px 9 9 9 7)
     ¬(s.enc.run.toNat + 1 = 62 ∨ s.enc.pixLeft = 1) ∧ s.inputs = [] ∧
       wordPixelRgb (px 9 9 9 7) = s.enc.prev.toRgb) := by decide

theorem witness_EncoderSendsIndex :
    let s := encState (rgb 1 1 1) 61 [rgb 10 20 30] 1 (px 10 20 30 0)
    let c := wordPixelRgb (px 10 20 30 0)
    s.active = .encoder ∧ s.enc.phase = .pixels ∧ s.enc.pixLeft ≠ 0 ∧ s.pixSource = px 10 20 30 0 :: [] ∧
      c ≠ s.enc.prev.toRgb ∧ cacheRead s.enc.cache (hashSlot c) = c := by decide

/-- Deltas at both ends of the range. -/
theorem witness_EncoderSendsDiff :
    let s := encState (rgb 100 100 100) 61 [] 1 (px 98 101 98 0)
    let c := wordPixelRgb (px 98 101 98 0)
    s.active = .encoder ∧ s.enc.phase = .pixels ∧ s.enc.pixLeft ≠ 0 ∧ s.pixSource = px 98 101 98 0 :: [] ∧
      c ≠ s.enc.prev.toRgb ∧ cacheRead s.enc.cache (hashSlot c) ≠ c ∧
      deltas s.deltaWrap s.enc.prev.toRgb c = { dr := -2, dg := 1, db := -2 } := by decide

/-- V-M9, the smallest deltas. -/
theorem witness_EncoderSendsLuma :
    let s := encState (rgb 100 100 100) 0 [] 1 (px 60 68 60 0)
    let c := wordPixelRgb (px 60 68 60 0)
    s.active = .encoder ∧ s.enc.phase = .pixels ∧ s.enc.pixLeft ≠ 0 ∧ s.pixSource = px 60 68 60 0 :: [] ∧
      c ≠ s.enc.prev.toRgb ∧ cacheRead s.enc.cache (hashSlot c) ≠ c ∧
      deltas s.deltaWrap s.enc.prev.toRgb c = { dr := -40, dg := -32, db := -40 } := by decide

/-- V-M14, one beyond LUMA. -/
theorem witness_EncoderSendsRgb :
    let s := encState (rgb 100 100 100) 0 [] 1 (px 132 132 132 0)
    let c := wordPixelRgb (px 132 132 132 0)
    s.active = .encoder ∧ s.enc.phase = .pixels ∧ s.enc.pixLeft ≠ 0 ∧ s.pixSource = px 132 132 132 0 :: [] ∧
      c ≠ s.enc.prev.toRgb ∧ cacheRead s.enc.cache (hashSlot c) ≠ c ∧
      deltas s.deltaWrap s.enc.prev.toRgb c = { dr := 32, dg := 32, db := 32 } := by decide

theorem witness_EncoderSendsEndMarker :
    let s := { State.reset with enc := { Encoder.reset with phase := .trailer } }
    s.active = .encoder ∧ s.enc.phase = .trailer := by decide

theorem witness_EncoderIssuesLegalElements :
    let s := encState (rgb 9 9 9) 61 [] 5 (px 9 9 9 0)
    s.active = .encoder ∧ s.enc.run.toNat ≤ 61 ∧ issued s = some (.run 62) := by decide

/-- A pixel that breaks the longest pending run. -/
theorem witness_PendingRunByte :
    let s := encState (rgb 9 9 9) 61 [] 5 (px 200 9 10 0)
    s.active = .encoder ∧ s.enc.phase = .pixels ∧ s.enc.pixLeft ≠ 0 ∧ s.pixSource = px 200 9 10 0 :: [] ∧
      wordPixelRgb (px 200 9 10 0) ≠ s.enc.prev.toRgb ∧ s.enc.run ≠ 0 ∧ s.enc.run.toNat ≤ 61 ∧
      issued s = some (.rgb 200 9 10) := by decide

theorem witness_PixelStepIsTheProcedure :
    let s := encState (rgb 9 9 9) 2 [] 1 (px 200 9 10 0)
    s.inputs = [] ∧ s.active = .encoder ∧ s.byteSinkReady = true ∧ s.enc.phase = .pixels ∧
      s.enc.pixLeft ≠ 0 ∧ s.pixSource = px 200 9 10 0 :: [] := by decide

theorem witness_ShapesOfAPixelStep :
    let s := encState (rgb 9 9 9) 2 [] 1 (px 200 9 10 0)
    s.inputs = [] ∧ s.active = .encoder ∧ s.enc.phase = .pixels ∧ s.enc.run.toNat ≤ 61 ∧
      (after (step s)).isSome = true := by decide

theorem witness_AlphaNeverReachesTheBytes :
    let s := encState (rgb 9 9 9) 2 [] 1 (px 200 9 10 0)
    let s' := { s with pixSource := [px 200 9 10 77], enc := { s.enc with prev := { rgb 9 9 9 with a := 5 } } }
    s.inputs = [] ∧ s.active = .encoder ∧ s ≠ s' ∧
      s'.pixSource.map wordPixelRgb = s.pixSource.map wordPixelRgb ∧
      s' = { s with
        pixSource := s'.pixSource
        enc := { s.enc with prev := { s.enc.prev with a := s'.enc.prev.a } } } ∧
      (after (step s)).isSome = true := by decide

/-- A match, and a mismatch in the last byte. -/
theorem witness_MagicIsCheckedAfterFourBytes :
    let s := decState .magic (rgb 0 0 0) [] 0 [0x71, 0x6F, 0x69, 0x66]
    s.inputs = [] ∧ s.active = .decoder ∧ s.dec.phase = .magic ∧
      s.byteSource = 0x71 :: 0x6F :: 0x69 :: 0x66 :: [] ∧
      ¬((0x71 : Byte) = 0x71 ∧ (0x6F : Byte) = 0x6F ∧ (0x69 : Byte) = 0x69 ∧ (0x67 : Byte) = 0x66) := by
  decide

theorem witness_DecoderParsesHeader :
    let s := decState .header (rgb 0 0 0) [] 0 []
    s.active = .decoder ∧ s.dec.phase = .header ∧ ((4 : Byte) = 3 ∨ (4 : Byte) = 4) ∧
      ¬((5 : Byte) = 3 ∨ (5 : Byte) = 4) := by decide

/-- The hypotheses shared by the statements about a tag the decoder takes, at the last pixel. -/
theorem witness_DecoderRunsTags :
    let s := decState .pixels (rgb 0 255 1) [rgb 10 20 30] 1 [0xC0]
    s.active = .decoder ∧ s.dec.phase = .pixels ∧ s.dec.run = 0 ∧ s.dec.pixLeft ≠ 0 ∧
      (Instr.diff (-2) 1 (-2)).wf = true ∧ (Instr.luma 31 7 (-8)).wf = true ∧ 1 ≤ 62 ∧ 62 ≤ 62 := by decide

theorem witness_PendingRunReadsNoByte :
    let t := decState .pixels (rgb 0 0 0) [] 1 []
    let s := { t with dec := { t.dec with run := 61 } }
    s.inputs = [] ∧ s.active = .decoder ∧ s.dec.phase = .pixels ∧ s.dec.pixLeft ≠ 0 ∧ s.dec.run ≠ 0 ∧
      s.pixSinkReady = true := by decide

/-- The marker, and eight bytes that differ in the first one. -/
theorem witness_EndMarkerIsCheckedByteForByte :
    let s := decState .trailer (rgb 0 0 0) [] 0 [0, 0, 0, 0, 0, 0, 0, 1, 9]
    s.active = .decoder ∧ s.dec.phase = .trailer ∧ s.inputs = [] ∧
      s.byteSource = [0, 0, 0, 0, 0, 0, 0, 1] ++ [9] ∧
      ([0x80, 0, 0, 0, 0, 0, 0, 1] : List Byte) ≠ [0, 0, 0, 0, 0, 0, 0, 1] := by decide

/-- One byte short in each phase. -/
theorem witness_MissingBytesTruncate :
    needsMoreBytes (decState .magic (rgb 0 0 0) [] 0 [1, 2, 3]) ∧
      needsMoreBytes (decState .header (rgb 0 0 0) [] 0 [1, 2, 3, 4, 5, 6, 7, 8, 9]) ∧
      needsMoreBytes (decState .trailer (rgb 0 0 0) [] 0 [0, 0, 0, 0, 0, 0, 0]) ∧
      needsMoreBytes (decState .pixels (rgb 0 0 0) [] 1 []) ∧
      needsMoreBytes (decState .pixels (rgb 0 0 0) [] 1 [0xBF]) ∧
      needsMoreBytes (decState .pixels (rgb 0 0 0) [] 1 [0xFE, 1, 2]) :=
  ⟨.inl ⟨rfl, by decide⟩, .inr (.inl ⟨rfl, by decide⟩), .inr (.inr (.inl ⟨rfl, by decide⟩)),
    .inr (.inr (.inr ⟨rfl, by decide, rfl, .inl rfl⟩)),
    .inr (.inr (.inr ⟨rfl, by decide, rfl, .inr (.inl ⟨0xBF, [], rfl, by decide, by decide, rfl⟩)⟩)),
    .inr (.inr (.inr ⟨rfl, by decide, rfl, .inr (.inr ⟨[1, 2], rfl, by decide⟩)⟩))⟩

/-- The end of the stream signalled inside the magic, the header, an RGB, a LUMA and the end marker. -/
theorem witness_TruncatedClauses :
    (let s := { decState .magic (rgb 0 0 0) [] 0 [0x71, 0x6F, 0x69] with eos := true }
     s.inputs = [] ∧ s.active = .decoder ∧ s.dec.phase = .magic ∧ s.byteSource.length < 4 ∧ s.eos = true) ∧
    (let s := { decState .header (rgb 0 0 0) [] 0 [1, 2, 3, 4, 5, 6, 7, 8, 9] with eos := true }
     s.inputs = [] ∧ s.active = .decoder ∧ s.dec.phase = .header ∧ s.byteSource.length < 10 ∧
       s.eos = true) ∧
    (let s := { decState .pixels (rgb 0 0 0) [] 1 [0xFE, 1, 2] with eos := true }
     s.inputs = [] ∧ s.active = .decoder ∧ s.dec.phase = .pixels ∧ s.dec.run = 0 ∧ s.dec.pixLeft ≠ 0 ∧
       s.eos = true ∧ s.byteSource = 0xFE :: [1, 2] ∧ ([1, 2] : List Byte).length < 3) ∧
    (let s := { decState .pixels (rgb 0 0 0) [] 1 [0xBF] with eos := true }
     s.inputs = [] ∧ s.active = .decoder ∧ s.dec.phase = .pixels ∧ s.dec.run = 0 ∧ s.dec.pixLeft ≠ 0 ∧
       s.eos = true ∧ s.byteSource = [0xBF] ∧ (0xBF : Byte).toNat ≤ 0xBF) ∧
    (let s := { decState .trailer (rgb 0 0 0) [] 0 [0, 0, 0, 0, 0, 0, 0] with eos := true }
     s.inputs = [] ∧ s.active = .decoder ∧ s.dec.phase = .trailer ∧ s.byteSource.length < 8 ∧
       s.eos = true) := by decide

/-- An empty cache holds (0, 0, 0) everywhere. -/
theorem cacheHashed_nil : cacheHashed [] := fun i => .inl (by simp [cacheRead, readCell]; decide)

/-- A decoder in its pixel phase that meets the invariant, with 3 channels. -/
theorem witness_DecodedPixelsHaveAlpha255 :
    (decState .pixels (rgb 1 2 3) [] 1 [0xC0]).dec.Inv ∧
      (after (step (decState .pixels (rgb 1 2 3) [] 1 [0xC0]))).isSome = true :=
  ⟨{ cacheWf := by decide, cacheHashed := cacheHashed_nil, runBound := by decide, pixelsLeft := by decide
     alpha := by decide, headerPending := by decide, headerParsed := by decide, doneIdle := by decide
     validDone := by decide, doneReport := by decide, faultDone := by decide, faultCode := by decide },
    by decide⟩

/-- The same with 4 channels. -/
theorem witness_DecodedPixelsHaveAlpha255_four :
    let d := decState .pixels (rgb 1 2 3) [] 1 [0xC0]
    let s := { d with dec := { d.dec with hdr := { d.dec.hdr with channels := 4 } } }
    s.dec.Inv ∧ s.inputs = [] ∧ s.active = .decoder ∧ s.dec.hdr.channels = 4 ∧
      (after (step s)).map (fun t => t.pixSink.length) = some 1 :=
  ⟨{ cacheWf := by decide, cacheHashed := cacheHashed_nil, runBound := by decide, pixelsLeft := by decide
     alpha := by decide, headerPending := by decide, headerParsed := by decide, doneIdle := by decide
     validDone := by decide, doneReport := by decide, faultDone := by decide, faultCode := by decide },
    by decide⟩

theorem witness_ValidOnlyThroughTheEndMarker :
    let s := decState .trailer (rgb 0 0 0) [] 0 [0, 0, 0, 0, 0, 0, 0, 1]
    s.dec.valid = false ∧ (after (step s)).map (fun t => t.dec.valid) = some true := by decide

theorem witness_EncoderFrame :
    (let s := encState (rgb 100 100 100) 1 [rgb 1 2 3] 2 (px 98 101 98 0)
     s.active = .encoder ∧ (after (exec (.diff (-2) 1 (-2)) s)).isSome = true) ∧
    (let s := { State.reset with enc := { Encoder.reset with phase := .trailer } }
     s.active = .encoder ∧ (after (exec .endMarker s)).isSome = true) := by decide

theorem witness_DecoderFrame :
    let s := decState .pixels (rgb 0 255 1) [rgb 10 20 30] 1 [0xC0]
    s.active = .decoder ∧ (after (exec (.rgb 1 2 3) s)).isSome = true ∧
      (after (exec .reservedFf s)).isSome = true := by decide

theorem witness_BlocksShareNothing :
    (let s := encState (rgb 9 9 9) 0 [] 5 (px 9 9 9 0)
     s.inputs = [] ∧ s.active = .encoder ∧ (after (step s)).isSome = true) ∧
    (let s := decState .pixels (rgb 1 2 3) [] 1 [0xC0]
     s.inputs = [] ∧ s.active = .decoder ∧ (after (step s)).isSome = true) ∧
    (let s := { State.reset with inputs := [.offerPixel 1, .reset] }
     s.inputs = .offerPixel 1 :: [.reset] ∧ (after (step s)).isSome = true) := by decide

/-- The decoder between passes with a report, while the encoder steps, and while the environment moves. -/
theorem witness_ReportsHoldUntilStartOrReset :
    (let s := { encState (rgb 9 9 9) 0 [] 5 (px 9 9 9 0) with
       dec := { Decoder.reset with done := true, fault := 4 } }
     (after (step s)).isSome = true ∧ s.dec.phase = .idle ∧ s.inputs.head? ≠ some .reset ∧
       s.inputs.head? ≠ some .startDecoder) ∧
    (let s := { State.reset with
       enc := { Encoder.reset with done := true, ok := true }, inputs := [.startDecoder] }
     (after (step s)).isSome = true ∧ s.enc.phase = .idle ∧ s.inputs.head? ≠ some .reset ∧
       ∀ cfg, s.inputs.head? ≠ some (.startEncoder cfg)) :=
  ⟨by decide, by decide, by decide, by decide, fun _ h => by cases h⟩

/-- An encoder in its pixel phase that meets the invariant. -/
theorem encState_inv : (encState (rgb 9 9 9) 61 [] 5 (px 9 9 9 0)).enc.Inv where
  cacheWf := by decide
  cacheHashed := cacheHashed_nil
  runBound := by decide
  runFlushed := by decide
  pixelsLeft := by decide
  noneLeft := by decide
  channels := by decide
  okWithDone := by decide
  doneIdle := by decide

/-- Both blocks in their pixel phases, with a step that completes. -/
theorem witness_StepKeepsTheInvariant :
    let s := { encState (rgb 9 9 9) 61 [] 5 (px 9 9 9 0) with
      dec := (decState .pixels (rgb 1 2 3) [] 1 [0xC0]).dec }
    s.Inv ∧ (after (step s)).isSome = true :=
  ⟨⟨encState_inv, witness_DecodedPixelsHaveAlpha255.1⟩, by decide⟩

theorem witness_InvariantStatesStep :
    let s := { encState (rgb 9 9 9) 61 [] 5 (px 9 9 9 0) with
      dec := (decState .pixels (rgb 1 2 3) [] 1 [0xC0]).dec }
    s.Inv ∧ ∀ cfg rest, s.inputs = .startEncoder cfg :: rest → s.enc.phase = .idle → startOk cfg = true :=
  ⟨⟨encState_inv, witness_DecodedPixelsHaveAlpha255.1⟩, fun _ _ h => by cases h⟩

/-- S6: a 2 by 1 image. -/
theorem witness_DecoderInvertsEncoder :
    let cfg : Header := { width := 2, height := 1, channels := 3, colorspace := 0 }
    State.reset.enc.phase = .idle ∧ State.reset.dec.phase = .idle ∧ startOk cfg = true ∧
      [px 10 20 30 0, px 10 20 30 0].length = cfg.width.toNat * cfg.height.toNat := by decide

end Sys2Proof.Tests
end

section
/-! The meaning of each element by the active block, one equation per arm of `exec` and block: the one
place where the arms are unfolded. -/

namespace Sys2Proof.Machine

/-! ### The encoder issues an element -/

theorem exec_header_of_encoder {s : State} (ha : s.active = .encoder) (w h : Dim) (c cs : Byte) :
    exec (.header w h c cs) s =
      encoderFraming (.header w h c cs)
        (fun t => setEncPhase .pixels (sendBytes (encode (.header w h c cs)) t)) s := by
  simp only [exec, execHeader, ha]

theorem exec_index_of_encoder {s : State} (ha : s.active = .encoder) (slot : Slot) :
    exec (.index slot) s = encoderIndex (.index slot) s := by
  simp only [exec, execIndex, ha]

theorem exec_diff_of_encoder {s : State} (ha : s.active = .encoder) (dr dg db : Int) :
    exec (.diff dr dg db) s = encoderLiteral (.diff dr dg db) s := by
  simp only [exec, execDiff, ha]

theorem exec_luma_of_encoder {s : State} (ha : s.active = .encoder) (dg drg dbg : Int) :
    exec (.luma dg drg dbg) s = encoderLiteral (.luma dg drg dbg) s := by
  simp only [exec, execLuma, ha]

theorem exec_run_of_encoder {s : State} (ha : s.active = .encoder) (n : Nat) :
    exec (.run n) s =
      encoderOperation (.run n) (fun _ t => setEncRun 0 (sendBytes (encode (.run n)) t)) s := by
  simp only [exec, execRun, ha]

theorem exec_rgb_of_encoder {s : State} (ha : s.active = .encoder) (r g b : Byte) :
    exec (.rgb r g b) s = encoderLiteral (.rgb r g b) s := by
  simp only [exec, execRgb, ha]

theorem exec_reservedFf_of_encoder {s : State} (ha : s.active = .encoder) :
    exec .reservedFf s = .refused .notSelected := by
  simp only [exec, execReservedFf, ha]

theorem exec_endMarker_of_encoder {s : State} (ha : s.active = .encoder) :
    exec .endMarker s = encoderFraming .endMarker (fun t => encoderDone (sendEndMarker t)) s := by
  simp only [exec, execEndMarker, ha]

/-! ### The decoder executes an element -/

theorem exec_header_of_decoder {s : State} (ha : s.active = .decoder) (w h : Dim) (c cs : Byte) :
    exec (.header w h c cs) s =
      decoderHeader { width := w, height := h, channels := c, colorspace := cs } s := by
  simp only [exec, execHeader, ha]

theorem exec_index_of_decoder {s : State} (ha : s.active = .decoder) (slot : Slot) :
    exec (.index slot) s = decoderIteration 1 id (cacheRead s.dec.cache slot) s := by
  simp only [exec, execIndex, ha]

theorem exec_diff_of_decoder {s : State} (ha : s.active = .decoder) (dr dg db : Int) :
    exec (.diff dr dg db) s = decoderLiteral 1 (diffColour s.dec.prev.toRgb dr dg db) s := by
  simp only [exec, execDiff, ha]

theorem exec_luma_of_decoder {s : State} (ha : s.active = .decoder) (dg drg dbg : Int) :
    exec (.luma dg drg dbg) s = decoderLiteral 2 (lumaColour s.dec.prev.toRgb dg drg dbg) s := by
  simp only [exec, execLuma, ha]

theorem exec_run_of_decoder {s : State} (ha : s.active = .decoder) (n : Nat) :
    exec (.run n) s =
      decoderIteration 1 (setDecRun (BitVec.ofNat 6 (n - 1))) s.dec.prev.toRgb s := by
  simp only [exec, execRun, ha]

theorem exec_rgb_of_decoder {s : State} (ha : s.active = .decoder) (r g b : Byte) :
    exec (.rgb r g b) s = decoderLiteral 4 { r := r, g := g, b := b } s := by
  simp only [exec, execRgb, ha]

theorem exec_reservedFf_of_decoder {s : State} (ha : s.active = .decoder) :
    exec .reservedFf s = decoderReserved s := by
  simp only [exec, execReservedFf, ha]

theorem exec_endMarker_of_decoder {s : State} (ha : s.active = .decoder) :
    exec .endMarker s = decoderEnd s := by
  simp only [exec, execEndMarker, ha]

end Sys2Proof.Machine
end

section
/-! Whose state a step touches (00_scope R2, 20_memory R74): the two blocks' frames, from the shared
operations up to a block's whole step, and the frame of one move of the environment. -/

namespace Sys2Proof.Machine

/-! ### The encoder's frame -/

/-- Between the two states only the encoder's registers and its two streams may differ. -/
structure OnlyEncoderMoves (s t : State) : Prop where
  dec : t.dec = s.dec
  byteSource : t.byteSource = s.byteSource
  pixSink : t.pixSink = s.pixSink
  byteSinkReady : t.byteSinkReady = s.byteSinkReady
  eos : t.eos = s.eos
  pixSinkReady : t.pixSinkReady = s.pixSinkReady
  active : t.active = s.active
  inputs : t.inputs = s.inputs
  deltaWrap : t.deltaWrap = s.deltaWrap

theorem OnlyEncoderMoves.refl (s : State) : OnlyEncoderMoves s s := by
  constructor <;> rfl

theorem terminateRun_onlyEncoderMoves (s : State) : OnlyEncoderMoves s (terminateRun s) := by
  unfold terminateRun
  split
  · exact .refl s
  · constructor <;> rfl

/-- What a pixel step does before the pixel is retired decides its frame. -/
theorem encoderOperation_onlyEncoderMoves {i : Instr} {u : Pixel → State → State} {s t : State}
    (hu : ∀ p, OnlyEncoderMoves s (u p s)) (h : encoderOperation i u s = .next t) :
    OnlyEncoderMoves s t := by
  obtain ⟨p, -, -, -, rfl⟩ := encoderOperation_next h
  exact { hu p with }

theorem encoderIndex_onlyEncoderMoves {i : Instr} {s t : State} (h : encoderIndex i s = .next t) :
    OnlyEncoderMoves s t := by
  refine encoderOperation_onlyEncoderMoves (fun _ => ?_) h
  exact { terminateRun_onlyEncoderMoves s with }

theorem encoderLiteral_onlyEncoderMoves {i : Instr} {s t : State}
    (h : encoderLiteral i s = .next t) : OnlyEncoderMoves s t := by
  refine encoderOperation_onlyEncoderMoves (fun _ => ?_) h
  exact { terminateRun_onlyEncoderMoves s with }

/-- Every element the encoder issues stays within the encoder and its streams. -/
theorem exec_onlyEncoderMoves {i : Instr} {s t : State} (ha : s.active = .encoder)
    (h : exec i s = .next t) : OnlyEncoderMoves s t := by
  cases i with
  | header w h' c cs =>
    rw [exec_header_of_encoder ha] at h
    obtain ⟨-, rfl⟩ := encoderFraming_next h
    constructor <;> rfl
  | index slot => exact encoderIndex_onlyEncoderMoves (exec_index_of_encoder ha slot ▸ h)
  | diff dr dg db => exact encoderLiteral_onlyEncoderMoves (exec_diff_of_encoder ha dr dg db ▸ h)
  | luma dg drg dbg =>
    exact encoderLiteral_onlyEncoderMoves (exec_luma_of_encoder ha dg drg dbg ▸ h)
  | run n =>
    rw [exec_run_of_encoder ha] at h
    exact encoderOperation_onlyEncoderMoves (fun _ => by constructor <;> rfl) h
  | rgb r g b => exact encoderLiteral_onlyEncoderMoves (exec_rgb_of_encoder ha r g b ▸ h)
  | reservedFf =>
    rw [exec_reservedFf_of_encoder ha] at h
    cases h
  | endMarker =>
    rw [exec_endMarker_of_encoder ha] at h
    obtain ⟨-, rfl⟩ := encoderFraming_next h
    constructor <;> rfl

theorem extendRun_onlyEncoderMoves {s t : State} (h : extendRun s = .next t) :
    OnlyEncoderMoves s t := by
  obtain rfl | ⟨p, -, -, -, rfl⟩ := extendRun_next h
  · exact .refl t
  · constructor <;> rfl

/-- The encoder's step, whatever it is, stays within the encoder and its streams. -/
theorem encoderStep_onlyEncoderMoves {s t : State} (ha : s.active = .encoder)
    (h : encoderStep s = .next t) : OnlyEncoderMoves s t := by
  obtain rfl | ⟨i, -, -, hi⟩ | ⟨-, hx⟩ := encoderStep_next h
  · exact .refl t
  · exact exec_onlyEncoderMoves ha hi
  · exact extendRun_onlyEncoderMoves hx

/-! ### The decoder's frame -/

/-- Between the two states only the decoder's registers and its two streams may differ. -/
structure OnlyDecoderMoves (s t : State) : Prop where
  enc : t.enc = s.enc
  pixSource : t.pixSource = s.pixSource
  byteSink : t.byteSink = s.byteSink
  byteSinkReady : t.byteSinkReady = s.byteSinkReady
  eos : t.eos = s.eos
  pixSinkReady : t.pixSinkReady = s.pixSinkReady
  active : t.active = s.active
  inputs : t.inputs = s.inputs
  deltaWrap : t.deltaWrap = s.deltaWrap

theorem OnlyDecoderMoves.refl (s : State) : OnlyDecoderMoves s s := by
  constructor <;> rfl

/-- What an iteration does between taking its bytes and producing its pixel decides its frame. -/
theorem decoderIteration_onlyDecoderMoves {n : Nat} {u : State → State} {c : Rgb} {s t : State}
    (hu : OnlyDecoderMoves s (u (takeBytes n s))) (h : decoderIteration n u c s = .next t) :
    OnlyDecoderMoves s t := by
  obtain ⟨-, -, -, rfl⟩ := decoderIteration_next h
  exact { hu with }

theorem decoderLiteral_onlyDecoderMoves {n : Nat} {c : Rgb} {s t : State}
    (h : decoderLiteral n c s = .next t) : OnlyDecoderMoves s t :=
  decoderIteration_onlyDecoderMoves (by constructor <;> rfl) h

/-- Every element the decoder executes stays within the decoder and its streams. -/
theorem exec_onlyDecoderMoves {i : Instr} {s t : State} (ha : s.active = .decoder)
    (h : exec i s = .next t) : OnlyDecoderMoves s t := by
  cases i with
  | header w h' c cs =>
    rw [exec_header_of_decoder ha] at h
    obtain ⟨-, ⟨-, rfl⟩ | ⟨-, rfl⟩⟩ := decoderHeader_next h
    · constructor <;> rfl
    · constructor <;> rfl
  | index slot =>
    rw [exec_index_of_decoder ha] at h
    exact decoderIteration_onlyDecoderMoves (by constructor <;> rfl) h
  | diff dr dg db => exact decoderLiteral_onlyDecoderMoves (exec_diff_of_decoder ha dr dg db ▸ h)
  | luma dg drg dbg =>
    exact decoderLiteral_onlyDecoderMoves (exec_luma_of_decoder ha dg drg dbg ▸ h)
  | run n =>
    rw [exec_run_of_decoder ha] at h
    exact decoderIteration_onlyDecoderMoves (by constructor <;> rfl) h
  | rgb r g b => exact decoderLiteral_onlyDecoderMoves (exec_rgb_of_decoder ha r g b ▸ h)
  | reservedFf =>
    rw [exec_reservedFf_of_decoder ha] at h
    obtain ⟨-, -, -, rfl⟩ := decoderReserved_next h
    constructor <;> rfl
  | endMarker =>
    rw [exec_endMarker_of_decoder ha] at h
    obtain ⟨-, rfl⟩ := decoderEnd_next h
    constructor <;> rfl

theorem fetchFault_onlyDecoderMoves {e : DecodeError} {s t : State}
    (h : fetchFault e s = .next t) : OnlyDecoderMoves s t := by
  obtain ⟨-, -, rfl⟩ | ⟨-, -, rfl⟩ | ⟨-, rfl⟩ | ⟨-, rfl⟩ := fetchFault_next h
  · exact .refl t
  all_goals constructor <;> rfl

theorem fetchAndExec_onlyDecoderMoves {p : Position} {s t : State} (ha : s.active = .decoder)
    (h : fetchAndExec p s = .next t) : OnlyDecoderMoves s t := by
  obtain ⟨i, rest, -, ⟨-, -, rfl⟩ | hi⟩ | ⟨e, -, he⟩ := fetchAndExec_next h
  · exact .refl t
  · exact exec_onlyDecoderMoves ha hi
  · exact fetchFault_onlyDecoderMoves he

theorem pixelIteration_onlyDecoderMoves {s t : State} (ha : s.active = .decoder)
    (h : pixelIteration s = .next t) : OnlyDecoderMoves s t := by
  obtain ⟨-, ⟨-, hf⟩ | ⟨-, -, rfl⟩ | ⟨-, -, rfl⟩⟩ := pixelIteration_next h
  · exact fetchAndExec_onlyDecoderMoves ha hf
  · constructor <;> rfl
  · exact .refl t

/-- The MAGIC step: the magic is taken and matches, or the bytes are no magic (45 R242). -/
theorem magicStep_next {s t : State} (h : magicStep s = .next t) :
    (∃ rest, decodeMagic s.byteSource = .ok rest ∧ t = setDecPhase .header (takeBytes 4 s)) ∨
      (∃ e, decodeMagic s.byteSource = .error e ∧ fetchFault e s = .next t) := by
  unfold magicStep at h
  split at h
  · cases h
    exact .inl ⟨_, by assumption, rfl⟩
  · exact .inr ⟨_, by assumption, h⟩

theorem magicStep_onlyDecoderMoves {s t : State} (h : magicStep s = .next t) :
    OnlyDecoderMoves s t := by
  obtain ⟨rest, -, rfl⟩ | ⟨e, -, he⟩ := magicStep_next h
  · constructor <;> rfl
  · exact fetchFault_onlyDecoderMoves he

/-- The decoder's step, by phase (10_state R37). -/
theorem decoderStep_next {s t : State} (h : decoderStep s = .next t) :
    (s.dec.phase = .idle ∧ t = s) ∨
    (s.dec.phase = .magic ∧ magicStep s = .next t) ∨
    (s.dec.phase = .header ∧ fetchAndExec .afterMagic s = .next t) ∨
    (s.dec.phase = .pixels ∧ pixelIteration s = .next t) ∨
    (s.dec.phase = .trailer ∧ fetchAndExec .trailer s = .next t) := by
  unfold decoderStep at h
  split at h <;> simp_all

/-- The decoder's step, whatever it is, stays within the decoder and its streams. -/
theorem decoderStep_onlyDecoderMoves {s t : State} (ha : s.active = .decoder)
    (h : decoderStep s = .next t) : OnlyDecoderMoves s t := by
  obtain ⟨-, rfl⟩ | ⟨-, hm⟩ | ⟨-, hf⟩ | ⟨-, hp⟩ | ⟨-, hf⟩ := decoderStep_next h
  · exact .refl t
  · exact magicStep_onlyDecoderMoves hm
  · exact fetchAndExec_onlyDecoderMoves ha hf
  · exact pixelIteration_onlyDecoderMoves ha hp
  · exact fetchAndExec_onlyDecoderMoves ha hf

/-! ### The environment's frame -/

/-- What one move of the environment leaves as it is. -/
structure InputFrame (e : Input) (s t : State) : Prop where
  inputs : t.inputs = s.inputs
  byteSink : t.byteSink = s.byteSink
  pixSink : t.pixSink = s.pixSink
  deltaWrap : t.deltaWrap = s.deltaWrap
  enc : e ≠ .reset → (∀ cfg, e ≠ .startEncoder cfg) → t.enc = s.enc
  dec : e ≠ .reset → e ≠ .startDecoder → t.dec = s.dec
  pixSource : (∀ w, e ≠ .offerPixel w) → t.pixSource = s.pixSource
  byteSource : (∀ b, e ≠ .offerByte b) → t.byteSource = s.byteSource

/-- Every move of the environment: a START is taken or ignored, the others are single updates. -/
theorem applyInput_frame {e : Input} {s t : State} (h : applyInput e s = .next t) :
    InputFrame e s t := by
  cases e with
  | startEncoder cfg =>
    obtain ⟨-, -, rfl⟩ | ⟨-, rfl⟩ := startEncoder_next h
    all_goals constructor <;> simp
  | startDecoder =>
    obtain ⟨-, rfl⟩ | ⟨-, rfl⟩ := startDecoder_next h
    all_goals constructor <;> simp
  | reset | offerPixel w | offerByte b | setEos l | setByteSinkReady l | setPixSinkReady l
  | select b =>
    cases h
    constructor <;> simp

/-! ### The obligation -/

/-- Settles O43: the frames of the two blocks' steps, then the frame of the move that lands
first, moves being steps of their own by the model's choice (log entry 5). -/
theorem blocksShareNothing : Obligations.BlocksShareNothing := by
  refine ⟨fun s t hin h => ⟨fun ha => ?_, fun ha => ?_⟩, fun s t e rest hin h => ?_⟩
  · have hstep : encoderStep s = .next t := by simpa [step_of_no_input hin, blockStep, ha] using h
    have frame := encoderStep_onlyEncoderMoves ha hstep
    exact ⟨frame.dec, frame.byteSource, frame.pixSink⟩
  · have hstep : decoderStep s = .next t := by simpa [step_of_no_input hin, blockStep, ha] using h
    have frame := decoderStep_onlyDecoderMoves ha hstep
    exact ⟨frame.enc, frame.pixSource, frame.byteSink⟩
  · have frame := applyInput_frame (step_of_input hin ▸ h)
    exact ⟨frame.inputs, frame.byteSink, frame.pixSink, frame.deltaWrap, frame.enc, frame.dec,
      frame.pixSource, frame.byteSource⟩

end Sys2Proof.Machine
end

section
/-! What a cache holds after a store (20_memory R61, R62; 42 R184; 46 R275): the stored colour in its slot,
every other slot as it was; so each slot keeps a colour of its own hash (42 R186). -/

namespace Sys2Proof.Machine

/-- A write leaves every other cell as it was, in any list, canonical or not. -/
theorem readCell_writeCell_ne {i j : Nat} {v : CacheWord} (hij : i ≠ j) :
    ∀ m : Memory, readCell (writeCell m i v) j = readCell m j
  | [] => by
    unfold writeCell
    split <;> simp [readCell, hij]
  | (slot, w) :: m => by
    unfold writeCell
    split
    · split <;> simp [readCell, hij]
    · split
      · subst slot
        split <;> simp [readCell, hij]
      · simp [readCell, readCell_writeCell_ne hij m]

/-- The canonical form matters here: a write of 0 removes the one entry the cell can have. -/
theorem readCell_writeCell_same {i : Nat} {v : CacheWord} :
    ∀ {lo : Nat} {m : Memory}, Memory.wfFrom lo m = true → readCell (writeCell m i v) i = v
  | _, [], _ => by
    unfold writeCell
    split <;> simp_all [readCell]
  | lo, (slot, w) :: m, h => by
    have hm : Memory.wfFrom (slot + 1) m = true := by
      simp only [Memory.wfFrom, Bool.and_eq_true] at h
      exact h.2
    unfold writeCell
    split
    · have : slot ≠ i := by omega
      have : readCell m i = 0 := readCell_below (by omega) hm
      split <;> simp_all [readCell]
    · split
      · have : readCell m i = 0 := readCell_below (by omega) hm
        split <;> simp_all [readCell]
      · have : slot ≠ i := by omega
        simp [readCell, this, readCell_writeCell_same hm]

theorem cacheRead_cacheStore_ne {m : Memory} {c : Rgb} {j : Slot} (hj : j ≠ hashSlot c) :
    cacheRead (cacheStore m c) j = cacheRead m j := by
  have hcell : (hashSlot c).toNat ≠ j.toNat := fun h => hj (BitVec.eq_of_toNat_eq h).symm
  rw [cacheRead, cacheStore, readCell_writeCell_ne hcell, cacheRead]

theorem cacheRead_cacheStore_same {m : Memory} (hwf : m.wf = true) (c : Rgb) :
    cacheRead (cacheStore m c) (hashSlot c) = c := by
  rw [cacheRead, cacheStore, readCell_writeCell_same hwf, wordRgb_rgbWord]

/-- START's clear leaves (0, 0, 0) in every slot (20_memory R63). -/
theorem cacheHashed_clear : cacheHashed [] := by
  intro j
  left
  rw [cacheRead, readCell_nil]
  rfl

/-- A store writes a colour into the slot of its own hash only. -/
theorem cacheHashed_cacheStore {m : Memory} (hwf : m.wf = true) (hm : cacheHashed m) (c : Rgb) :
    cacheHashed (cacheStore m c) := by
  intro j
  by_cases hj : j = hashSlot c
  · subst hj
    right
    rw [cacheRead_cacheStore_same hwf]
  · rw [cacheRead_cacheStore_ne hj]
    exact hm j

end Sys2Proof.Machine
end

section
/-! What an element can do, said once for each block: the cases of `exec` with the encoder active and with
the decoder active, each with its guards and its next state. -/

namespace Sys2Proof.Machine

/-! ### The encoder's elements -/

@[simp] theorem terminateRun_enc (s : State) : (terminateRun s).enc = { s.enc with run := 0 } := by
  unfold terminateRun
  split
  · rename_i hrun
    rw [← hrun]
  · rfl

/-- A pending run adds bytes after those already sent. -/
theorem terminateRun_byteSink (s : State) : ∃ bs, (terminateRun s).byteSink = s.byteSink ++ bs := by
  unfold terminateRun
  split
  · exact ⟨[], (List.append_nil _).symm⟩
  · exact ⟨_, rfl⟩

theorem position_literalOf (wrap : Bool) (prev c : Rgb) :
    (literalOf wrap prev c).position = .operation := by
  unfold literalOf
  split
  · rfl
  · split <;> rfl

theorem position_of_muxer {wrap : Bool} {e : Encoder} {c : Rgb} {i : Instr}
    (h : muxer wrap e c = some i) : i.position = .operation := by
  obtain ⟨-, -, rfl⟩ | ⟨-, -, rfl⟩ | ⟨-, -, rfl⟩ := muxer_cases h
  · rfl
  · rfl
  · exact position_literalOf ..

/-- The phase in which the encoder issues an element is that of the element's position. -/
theorem issued_phase {s : State} {i : Instr} (h : issued s = some i) :
    (i.position = .start ∧ s.enc.phase = .header) ∨
    (i.position = .operation ∧ s.enc.phase = .pixels) ∨
    (i.position = .trailer ∧ s.enc.phase = .trailer) := by
  obtain ⟨hp, rfl⟩ | ⟨hp, p, -, hm⟩ | ⟨hp, rfl⟩ := issued_cases h
  · exact .inl ⟨rfl, hp⟩
  · exact .inr (.inl ⟨position_of_muxer hm, hp⟩)
  · exact .inr (.inr ⟨rfl, hp⟩)

/-- The offered pixel `p` is given the operation `i`, and a pixel is left. -/
structure Selected (s : State) (i : Instr) (p : Pixel) : Prop where
  offered : offeredPixel s = some p
  issued : issued s = some i
  pixelsLeft : s.enc.pixLeft ≠ 0

/-- The encoder performs the element `i` and comes from `s` to the last state: HEADER (40 R132), INDEX (42
R183), DIFF, LUMA and RGB (42 R184; 43 R205 to R207), RUN (41 R162), END (40 R137). -/
inductive EncoderPerforms (s : State) : Instr → State → Prop
  | header {w h : Dim} {c cs : Byte} (hi : issued s = some (.header w h c cs)) :
    EncoderPerforms s (.header w h c cs)
      (setEncPhase .pixels (sendBytes (encode (.header w h c cs)) s))
  | index {slot : Slot} {p : Pixel} (hs : Selected s (.index slot) p) :
    EncoderPerforms s (.index slot) (retirePixel p (sendBytes (encode (.index slot)) (terminateRun s)))
  | literal {i : Instr} {p : Pixel} (hst : storesColour i = true) (hs : Selected s i p) :
    EncoderPerforms s i (retirePixel p (sendBytes (encode i) (encStore p.toRgb (terminateRun s))))
  | run {n : Nat} {p : Pixel} (hs : Selected s (.run n) p) :
    EncoderPerforms s (.run n) (retirePixel p (setEncRun 0 (sendBytes (encode (.run n)) s)))
  | endMarker (hi : issued s = some .endMarker) :
    EncoderPerforms s .endMarker (encoderDone (sendEndMarker s))

theorem encoderLiteral_performs {i : Instr} {s t : State} (hst : storesColour i = true)
    (h : encoderLiteral i s = .next t) : EncoderPerforms s i t := by
  obtain ⟨p, hp, hi, hl, rfl⟩ := encoderOperation_next h
  exact .literal hst ⟨hp, hi, hl⟩

theorem exec_encoderPerforms {i : Instr} {s t : State} (ha : s.active = .encoder)
    (h : exec i s = .next t) : EncoderPerforms s i t := by
  cases i with
  | header w h' c cs =>
    rw [exec_header_of_encoder ha] at h
    obtain ⟨hi, rfl⟩ := encoderFraming_next h
    exact .header hi
  | index slot =>
    rw [exec_index_of_encoder ha] at h
    obtain ⟨p, hp, hi, hl, rfl⟩ := encoderOperation_next h
    exact .index ⟨hp, hi, hl⟩
  | diff dr dg db => exact encoderLiteral_performs rfl (exec_diff_of_encoder ha dr dg db ▸ h)
  | luma dg drg dbg => exact encoderLiteral_performs rfl (exec_luma_of_encoder ha dg drg dbg ▸ h)
  | run n =>
    rw [exec_run_of_encoder ha] at h
    obtain ⟨p, hp, hi, hl, rfl⟩ := encoderOperation_next h
    exact .run ⟨hp, hi, hl⟩
  | rgb r g b => exact encoderLiteral_performs rfl (exec_rgb_of_encoder ha r g b ▸ h)
  | reservedFf =>
    rw [exec_reservedFf_of_encoder ha] at h
    cases h
  | endMarker =>
    rw [exec_endMarker_of_encoder ha] at h
    obtain ⟨hi, rfl⟩ := encoderFraming_next h
    exact .endMarker hi

theorem storesColour_position {i : Instr} (h : storesColour i = true) : i.position = .operation := by
  cases i with
  | diff | luma | rgb => rfl
  | header | index | run | reservedFf | endMarker => cases h

/-! ### The decoder's elements -/

/-- The decoder takes a tag: it is in its pixel phase, no run is pending and a pixel is left (45 R245). -/
structure TakesTag (s : State) : Prop where
  phase : s.dec.phase = .pixels
  noRun : s.dec.run = 0
  pixelsLeft : s.dec.pixLeft ≠ 0

/-- The decoder performs the element `i` and comes from `s` to the last state: HEADER (45 R243),
BAD_CHANNELS (45 R244), INDEX (46 R271), DIFF, LUMA and RGB (46 R272 to R275), RUN (46 R270), RESERVED_TAG
(46 R277), END (45 R250). A literal form's length and colour are left open: no frame depends on them. -/
inductive DecoderPerforms (s : State) : Instr → State → Prop
  | header {w h : Dim} {c cs : Byte} (hp : s.dec.phase = .header) (hc : channelsOk c = true) :
    DecoderPerforms s (.header w h c cs)
      (enterPixels ⟨w, h, c, cs⟩ (setHeader ⟨w, h, c, cs⟩ (takeBytes 10 s)))
  | badHeader {w h : Dim} {c cs : Byte} (hp : s.dec.phase = .header) (hc : channelsOk c = false) :
    DecoderPerforms s (.header w h c cs)
      (raiseFault .badChannels (setHeader ⟨w, h, c, cs⟩ (takeBytes 10 s)))
  | index {slot : Slot} (ht : TakesTag s) :
    DecoderPerforms s (.index slot) (producePixel (cacheRead s.dec.cache slot) (takeBytes 1 s))
  | literal {i : Instr} {n : Nat} {c : Rgb} (hst : storesColour i = true) (ht : TakesTag s) :
    DecoderPerforms s i (producePixel c (decStore c (takeBytes n s)))
  | run {n : Nat} (ht : TakesTag s) :
    DecoderPerforms s (.run n)
      (producePixel s.dec.prev.toRgb (setDecRun (BitVec.ofNat 6 (n - 1)) (takeBytes 1 s)))
  | reservedFf (ht : TakesTag s) :
    DecoderPerforms s .reservedFf (raiseFault .reservedTag (takeBytes 1 s))
  | endMarker (hp : s.dec.phase = .trailer) :
    DecoderPerforms s .endMarker (decoderDone true .none (takeBytes 8 s))

theorem decoderLiteral_performs {i : Instr} {n : Nat} {c : Rgb} {s t : State}
    (hst : storesColour i = true) (h : decoderLiteral n c s = .next t) : DecoderPerforms s i t := by
  obtain ⟨hp, hr, hl, rfl⟩ := decoderIteration_next h
  exact .literal hst ⟨hp, hr, hl⟩

theorem exec_decoderPerforms {i : Instr} {s t : State} (ha : s.active = .decoder)
    (h : exec i s = .next t) : DecoderPerforms s i t := by
  cases i with
  | header w h' c cs =>
    rw [exec_header_of_decoder ha] at h
    obtain ⟨hp, ⟨hc, rfl⟩ | ⟨hc, rfl⟩⟩ := decoderHeader_next h
    · exact .header hp hc
    · exact .badHeader hp hc
  | index slot =>
    rw [exec_index_of_decoder ha] at h
    obtain ⟨hp, hr, hl, rfl⟩ := decoderIteration_next h
    exact .index ⟨hp, hr, hl⟩
  | diff dr dg db => exact decoderLiteral_performs rfl (exec_diff_of_decoder ha dr dg db ▸ h)
  | luma dg drg dbg => exact decoderLiteral_performs rfl (exec_luma_of_decoder ha dg drg dbg ▸ h)
  | run n =>
    rw [exec_run_of_decoder ha] at h
    obtain ⟨hp, hr, hl, rfl⟩ := decoderIteration_next h
    exact .run ⟨hp, hr, hl⟩
  | rgb r g b => exact decoderLiteral_performs rfl (exec_rgb_of_decoder ha r g b ▸ h)
  | reservedFf =>
    rw [exec_reservedFf_of_decoder ha] at h
    obtain ⟨hp, hr, hl, rfl⟩ := decoderReserved_next h
    exact .reservedFf ⟨hp, hr, hl⟩
  | endMarker =>
    rw [exec_endMarker_of_decoder ha] at h
    obtain ⟨hp, rfl⟩ := decoderEnd_next h
    exact .endMarker hp

end Sys2Proof.Machine
end

section
/-! The encoder's invariant (10_state R22, R23, R25, R27; 41 R165; 42 R186): each update keeps it under
its guards, and so does every element and every step. -/

namespace Sys2Proof.Machine

/-! ### The last pixel and the pixel counter (40 R135, R136; 45 R245) -/

theorem sub_one_of_isLast {n : Count} (h : isLast n = true) : n - 1 = 0 := by
  rw [of_decide_eq_true h, sub_self]

theorem sub_one_of_not_isLast {n : Count} (h : isLast n = false) : n - 1 ≠ 0 :=
  sub_ne_zero.mpr (of_decide_eq_false h)

/-! ### The updates -/

theorem encoder_reset_inv : Encoder.reset.Inv where
  cacheWf := rfl
  cacheHashed := cacheHashed_clear
  runBound := by decide
  runFlushed := by decide
  pixelsLeft := by decide
  noneLeft := by decide
  channels := by decide
  okWithDone := rfl
  doneIdle := by decide

theorem encoderStart_encInv {cfg : Header} (hok : startOk cfg = true) (s : State) :
    (encoderStart cfg s).enc.Inv := by
  simp only [startOk, Bool.and_eq_true, decide_eq_true_eq] at hok
  obtain ⟨harea, hch⟩ := hok
  exact {
    cacheWf := rfl
    cacheHashed := cacheHashed_clear
    runBound := by simp
    runFlushed := by simp
    pixelsLeft := fun _ => harea
    noneLeft := by simp
    channels := fun _ => hch
    okWithDone := rfl
    doneIdle := by simp }

theorem setEncRun_encInv {s : State} {n : RunCount} (hs : s.enc.Inv) (hn : n.toNat ≤ 61)
    (hflush : s.enc.phase = .pixels ∨ n = 0) : (setEncRun n s).enc.Inv :=
  { hs with
    runBound := hn
    runFlushed := by
      obtain hp | hz := hflush
      · simp [hp]
      · exact fun _ => hz }

theorem terminateRun_encInv {s : State} (hs : s.enc.Inv) : (terminateRun s).enc.Inv := by
  rw [terminateRun_enc]
  exact setEncRun_encInv hs (n := 0) (by decide) (.inr rfl)

theorem encStore_encInv {s : State} (hs : s.enc.Inv) (c : Rgb) : (encStore c s).enc.Inv :=
  { hs with
    cacheWf := cacheStore_wf c hs.cacheWf
    cacheHashed := cacheHashed_cacheStore hs.cacheWf hs.cacheHashed c }

/-- The end of a PIXEL step moves the phase to the trailer exactly with the last pixel, when no run may be
pending any more (41 R165 (c)). -/
theorem retirePixel_encInv {s : State} {p : Pixel} (hs : s.enc.Inv) (hp : s.enc.phase = .pixels)
    (hflush : isLast s.enc.pixLeft = true → s.enc.run = 0) : (retirePixel p s).enc.Inv := by
  have hch : channelsOk s.enc.cfg.channels = true := hs.channels (by simp [hp])
  have hdone : s.enc.done ≠ true := mt hs.doneIdle (by simp [hp])
  cases hlast : isLast s.enc.pixLeft with
  | true =>
    exact { hs with
      runFlushed := fun _ => hflush hlast
      pixelsLeft := by simp [hlast]
      noneLeft := fun _ => sub_one_of_isLast hlast
      channels := fun _ => hch
      doneIdle := fun hd => absurd hd hdone }
  | false =>
    exact { hs with
      runFlushed := by simp [hlast, hp]
      pixelsLeft := fun _ => sub_one_of_not_isLast hlast
      noneLeft := by simp [hlast, hp]
      channels := fun _ => hch
      doneIdle := fun hd => absurd hd hdone }

/-- HEADER hands the pass over to its pixels. -/
theorem setEncPhase_pixels_encInv {s : State} (hs : s.enc.Inv) (hp : s.enc.phase = .header) :
    (setEncPhase .pixels s).enc.Inv :=
  { hs with
    runFlushed := by simp
    pixelsLeft := fun _ => hs.pixelsLeft (.inl hp)
    noneLeft := by simp
    channels := fun _ => hs.channels (by simp [hp])
    doneIdle := fun hd => absurd (hs.doneIdle hd) (by simp [hp]) }

theorem encoderDone_encInv {s : State} (hs : s.enc.Inv) : (encoderDone s).enc.Inv :=
  { hs with
    runFlushed := by simp
    pixelsLeft := by simp
    noneLeft := by simp
    channels := by simp
    okWithDone := rfl
    doneIdle := by simp }

/-! ### The elements and the steps -/

/-- An element that is selected for a pixel is issued in phase PIXELS. -/
theorem Selected.phase {s : State} {i : Instr} {p : Pixel} (h : Selected s i p)
    (hi : i.position = .operation) : s.enc.phase = .pixels := by
  simpa [hi] using issued_phase h.issued

theorem EncoderPerforms.encInv {s t : State} {i : Instr} (h : EncoderPerforms s i t)
    (hs : s.enc.Inv) : t.enc.Inv := by
  cases h with
  | header hi =>
    have hp : s.enc.phase = .header := by simpa [Instr.position] using issued_phase hi
    exact setEncPhase_pixels_encInv (s := sendBytes _ s) hs hp
  | index hsel =>
    exact retirePixel_encInv (s := sendBytes _ (terminateRun s)) (terminateRun_encInv hs)
      (by simp [hsel.phase rfl]) (by simp)
  | literal hst hsel =>
    have hp := hsel.phase (storesColour_position hst)
    exact retirePixel_encInv (s := sendBytes _ (encStore _ (terminateRun s)))
      (encStore_encInv (terminateRun_encInv hs) _) (by simp [hp]) (by simp)
  | run hsel =>
    exact retirePixel_encInv (setEncRun_encInv (s := sendBytes _ s) hs (by decide) (.inr rfl))
      (by simp [hsel.phase rfl]) (by simp)
  | endMarker hi => exact encoderDone_encInv (s := sendEndMarker s) hs

/-- A run that is extended has not reached 62 and does not end with the last pixel (41 R162). -/
theorem extendRun_encInv {s t : State} (hs : s.enc.Inv) (hi : issued s = none)
    (h : extendRun s = .next t) : t.enc.Inv := by
  obtain rfl | ⟨p, hp, ho, -, rfl⟩ := extendRun_next h
  · exact hs
  · have hflush : flushes s.enc.run s.enc.pixLeft = false :=
      (muxer_none (issued_pixels hp ho ▸ hi)).2
    obtain ⟨hmax, hlast⟩ := Bool.or_eq_false_iff.mp hflush
    have hmax : s.enc.run.toNat + 1 ≠ 62 := of_decide_eq_false hmax
    have hbound := hs.runBound
    refine retirePixel_encInv (setEncRun_encInv hs ?_ (.inl hp)) hp ?_
    · simp only [runLength, BitVec.toNat_ofNat]
      omega
    · simp [hlast]

theorem encoderStep_encInv {s t : State} (ha : s.active = .encoder) (hs : s.enc.Inv)
    (h : encoderStep s = .next t) : t.enc.Inv := by
  obtain rfl | ⟨i, -, -, hx⟩ | ⟨hi, hx⟩ := encoderStep_next h
  · exact hs
  · exact (exec_encoderPerforms ha hx).encInv hs
  · exact extendRun_encInv hs hi hx

end Sys2Proof.Machine
end

section
/-! The decoder's invariant (10_state R36, R37, R39, R40; 45 R251; 46 R276; 60 R301): each update keeps
it under its guards, and so does every element it fetches and every step. -/

namespace Sys2Proof.Machine

/-! ### The run lengths that can be fetched -/

/-- The two low-field values above 61 are the tags FE and FF, which are tested first (45 R247). -/
theorem runField_le_61 {t : Byte} (hrgb : t ≠ tagRgb) (hres : t ≠ tagReserved)
    (htop : t.extractLsb' 6 2 = 0b11#2) : (t.extractLsb' 0 6).toNat ≤ 61 := by
  have hlt := t.isLt
  have hfe : t.toNat ≠ 0xFE := fun h => hrgb (BitVec.eq_of_toNat_eq h)
  have hff : t.toNat ≠ 0xFF := fun h => hres (BitVec.eq_of_toNat_eq h)
  have hthree : t.toNat / 64 % 4 = 3 := by
    simpa [Nat.shiftRight_eq_div_pow] using congrArg BitVec.toNat htop
  have hfield : (t.extractLsb' 0 6).toNat = t.toNat % 64 := by simp
  omega

theorem decodeOperation_run_le {bs rest : List Byte} {n : Nat}
    (h : decodeOperation bs = .ok (.run n, rest)) : n ≤ Config.runMax := by
  cases bs with
  | nil => cases h
  | cons t bs =>
    simp only [decodeOperation] at h
    split at h
    · split at h <;> cases h
    · split at h
      · cases h
      · split at h
        · cases h
          exact Nat.succ_le_succ (runField_le_61 (by assumption) (by assumption) (by assumption))
        · split at h
          · cases h
          · split at h
            · cases h
            · split at h <;> cases h

theorem decodeHeaderFields_ne_run {bs rest : List Byte} {n : Nat} :
    decodeHeaderFields bs ≠ .ok (.run n, rest) := by
  unfold decodeHeaderFields
  split <;> simp

theorem decodeTrailer_ne_run {bs rest : List Byte} {n : Nat} :
    decodeTrailer bs ≠ .ok (.run n, rest) := by
  unfold decodeTrailer
  split
  · split <;> simp
  · simp

/-- A RUN that is fetched describes at most 62 pixels (30 R97). -/
theorem decode_run_le {p : Position} {bs rest : List Byte} {n : Nat}
    (h : decode p bs = .ok (.run n, rest)) : n ≤ Config.runMax := by
  cases p with
  | start =>
    simp only [decode] at h
    split at h
    · exact absurd h decodeHeaderFields_ne_run
    · cases h
  | afterMagic => exact absurd h decodeHeaderFields_ne_run
  | operation => exact decodeOperation_run_le h
  | trailer => exact absurd h decodeTrailer_ne_run

/-! ### The updates -/

theorem decoder_reset_inv : Decoder.reset.Inv where
  cacheWf := rfl
  cacheHashed := cacheHashed_clear
  runBound := by decide
  pixelsLeft := by decide
  alpha := by decide
  headerPending := by decide
  headerParsed := by decide
  doneIdle := by decide
  validDone := by decide
  doneReport := by decide
  faultDone := by decide
  faultCode := by decide

theorem decoderStart_decInv (s : State) : (decoderStart s).dec.Inv where
  cacheWf := rfl
  cacheHashed := cacheHashed_clear
  runBound := by simp
  pixelsLeft := by simp
  alpha := fun _ => rfl
  headerPending := fun _ => rfl
  headerParsed := by simp
  doneIdle := by simp
  validDone := by simp
  doneReport := by simp
  faultDone := by simp
  faultCode := by simp

theorem FaultCode.code_eq_zero_iff (f : FaultCode) : f.code = 0 ↔ f = .none := by
  cases f <;> decide

theorem FaultCode.code_le_five (f : FaultCode) : f.code.toNat ≤ 5 := by
  cases f <;> decide

theorem setDecRun_decInv {s : State} {n : RunCount} (hs : s.dec.Inv) (hn : n.toNat ≤ 61) :
    (setDecRun n s).dec.Inv :=
  { hs with runBound := hn }

theorem decStore_decInv {s : State} (hs : s.dec.Inv) (c : Rgb) : (decStore c s).dec.Inv :=
  { hs with
    cacheWf := cacheStore_wf c hs.cacheWf
    cacheHashed := cacheHashed_cacheStore hs.cacheWf hs.cacheHashed c }

/-- The end of a PIXEL iteration: the alpha is held, and the phase moves on with the last pixel. -/
theorem producePixel_decInv {s : State} (hs : s.dec.Inv) (hp : s.dec.phase = .pixels) (c : Rgb) :
    (producePixel c s).dec.Inv := by
  have halpha : s.dec.prev.a = 255 := hs.alpha (by simp [hp])
  have hhdr := hs.headerParsed (.inl hp)
  have hdone : s.dec.done ≠ true := mt hs.doneIdle (by simp [hp])
  cases hlast : isLast s.dec.pixLeft with
  | true =>
    exact { hs with
      pixelsLeft := by simp [hlast]
      alpha := fun _ => halpha
      headerPending := by simp [hlast]
      headerParsed := fun _ => hhdr
      doneIdle := fun hd => absurd hd hdone }
  | false =>
    exact { hs with
      pixelsLeft := fun _ => sub_one_of_not_isLast hlast
      alpha := fun _ => halpha
      headerPending := by simp [hlast, hp]
      headerParsed := fun _ => hhdr
      doneIdle := fun hd => absurd hd hdone }

/-- The magic matched: the header comes next, still not populated. -/
theorem setDecPhase_header_decInv {s : State} (hs : s.dec.Inv) (hp : s.dec.phase = .magic) :
    (setDecPhase .header s).dec.Inv :=
  { hs with
    pixelsLeft := by simp
    alpha := fun _ => hs.alpha (by simp [hp])
    headerPending := fun _ => hs.headerPending (.inl hp)
    headerParsed := by simp
    doneIdle := fun hd => absurd (hs.doneIdle hd) (by simp [hp]) }

/-- A legal header leads to the pixels, or with zero area to the trailer (45 R243, R254). -/
theorem enterPixels_setHeader_decInv {s : State} {h : Header} (hs : s.dec.Inv)
    (hp : s.dec.phase = .header) (hc : channelsOk h.channels = true) :
    (enterPixels h (setHeader h s)).dec.Inv := by
  have halpha : s.dec.prev.a = 255 := hs.alpha (by simp [hp])
  have hdone : s.dec.done ≠ true := mt hs.doneIdle (by simp [hp])
  have hvalid : s.dec.valid ≠ true := fun hv => hdone (hs.validDone hv).1
  exact { hs with
    pixelsLeft := fun hnext (harea : pixelCount h = 0) => by simp [harea] at hnext
    alpha := fun _ => halpha
    headerPending := by
      rw [enterPixels_dec_phase]
      split <;> simp
    headerParsed := fun _ => ⟨rfl, hc⟩
    doneIdle := fun hd => absurd hd hdone
    validDone := fun hv => absurd hv hvalid }

/-- The end of a pass, whatever stood before it: the report is valid exactly without a fault, and then the
header is populated. -/
theorem decoderDone_decInv {s : State} {valid : Bool} {f : FaultCode} (hwf : s.dec.cache.wf = true)
    (hhash : cacheHashed s.dec.cache) (hrun : s.dec.run.toNat ≤ 61) (hvalid : valid = true ↔ f = .none)
    (hhdr : valid = true → s.dec.hdrValid = true) : (decoderDone valid f s).dec.Inv where
  cacheWf := hwf
  cacheHashed := hhash
  runBound := hrun
  pixelsLeft := by simp
  alpha := by simp
  headerPending := by simp
  headerParsed := by simp
  doneIdle := by simp
  validDone := fun hv => ⟨rfl, hhdr hv⟩
  doneReport := fun _ => hvalid.trans f.code_eq_zero_iff.symm
  faultDone := fun _ => rfl
  faultCode := f.code_le_five

/-- Every fault ends the pass within the invariant (60 R308). -/
theorem raiseFault_decInv {s : State} {f : FaultCode} (hs : s.dec.Inv) (hf : f ≠ .none) :
    (raiseFault f s).dec.Inv :=
  decoderDone_decInv hs.cacheWf hs.cacheHashed hs.runBound (by simp [hf]) (by simp)

/-! ### The elements and the steps -/

theorem DecoderPerforms.decInv {s t : State} {i : Instr} (h : DecoderPerforms s i t)
    (hi : ∀ n, i = .run n → n ≤ Config.runMax) (hs : s.dec.Inv) : t.dec.Inv := by
  cases h with
  | header hp hc => exact enterPixels_setHeader_decInv (s := takeBytes 10 s) hs hp hc
  | badHeader hp hc =>
    exact decoderDone_decInv hs.cacheWf hs.cacheHashed hs.runBound (by decide) (by simp)
  | index ht => exact producePixel_decInv (s := takeBytes 1 s) hs ht.phase _
  | literal hst ht =>
    exact producePixel_decInv (decStore_decInv (s := takeBytes _ s) hs _) ht.phase _
  | @run n ht =>
    have hn : (BitVec.ofNat 6 (n - 1)).toNat ≤ 61 := by
      have := hi n rfl
      simp only [Config.runMax, BitVec.toNat_ofNat] at this ⊢
      omega
    exact producePixel_decInv (setDecRun_decInv (s := takeBytes 1 s) hs hn) ht.phase _
  | reservedFf ht => exact raiseFault_decInv (s := takeBytes 1 s) hs (by decide)
  | endMarker hp =>
    exact decoderDone_decInv (s := takeBytes 8 s) hs.cacheWf hs.cacheHashed hs.runBound (by simp)
      fun _ => (hs.headerParsed (.inr hp)).1

theorem fetchFault_decInv {e : DecodeError} {s t : State} (hs : s.dec.Inv)
    (h : fetchFault e s = .next t) : t.dec.Inv := by
  obtain ⟨-, -, rfl⟩ | ⟨-, -, rfl⟩ | ⟨-, rfl⟩ | ⟨-, rfl⟩ := fetchFault_next h
  · exact hs
  · exact raiseFault_decInv (s := takeAllBytes s) hs (by decide)
  · exact raiseFault_decInv (s := takeBytes 4 s) hs (by decide)
  · exact raiseFault_decInv (s := takeBytes 8 s) hs (f := .badEndMarker) (by decide)

theorem fetchAndExec_decInv {p : Position} {s t : State} (ha : s.active = .decoder) (hs : s.dec.Inv)
    (h : fetchAndExec p s = .next t) : t.dec.Inv := by
  obtain ⟨i, rest, hd, ⟨-, -, rfl⟩ | hx⟩ | ⟨e, -, he⟩ := fetchAndExec_next h
  · exact hs
  · exact (exec_decoderPerforms ha hx).decInv (fun n hn => decode_run_le (hn ▸ hd)) hs
  · exact fetchFault_decInv hs he

theorem magicStep_decInv {s t : State} (hp : s.dec.phase = .magic) (hs : s.dec.Inv)
    (h : magicStep s = .next t) : t.dec.Inv := by
  obtain ⟨rest, -, rfl⟩ | ⟨e, -, he⟩ := magicStep_next h
  · exact setDecPhase_header_decInv (s := takeBytes 4 s) hs hp
  · exact fetchFault_decInv hs he

/-- A pending run counts down from at most 61. -/
theorem runPending_decInv {s : State} (hs : s.dec.Inv) (hp : s.dec.phase = .pixels)
    (hr : s.dec.run ≠ 0) : (runPending s).dec.Inv := by
  have hn : (s.dec.run - 1).toNat ≤ 61 := by
    have := hs.runBound
    bv_omega
  exact producePixel_decInv (setDecRun_decInv hs hn) hp _

theorem pixelIteration_decInv {s t : State} (ha : s.active = .decoder) (hp : s.dec.phase = .pixels)
    (hs : s.dec.Inv) (h : pixelIteration s = .next t) : t.dec.Inv := by
  obtain ⟨-, ⟨-, hf⟩ | ⟨hr, -, rfl⟩ | ⟨-, -, rfl⟩⟩ := pixelIteration_next h
  · exact fetchAndExec_decInv ha hs hf
  · exact runPending_decInv hs hp hr
  · exact hs

theorem decoderStep_decInv {s t : State} (ha : s.active = .decoder) (hs : s.dec.Inv)
    (h : decoderStep s = .next t) : t.dec.Inv := by
  obtain ⟨-, rfl⟩ | ⟨hp, hm⟩ | ⟨-, hf⟩ | ⟨hp, hx⟩ | ⟨-, hf⟩ := decoderStep_next h
  · exact hs
  · exact magicStep_decInv hp hs hm
  · exact fetchAndExec_decInv ha hs hf
  · exact pixelIteration_decInv ha hp hs hx
  · exact fetchAndExec_decInv ha hs hf

end Sys2Proof.Machine
end

section
/-! The machine's invariant: it holds after reset, and a step of either block or of the environment keeps
it. -/

namespace Sys2Proof.Machine

theorem applyInput_inv {e : Input} {s t : State} (hs : s.Inv) (h : applyInput e s = .next t) :
    t.Inv := by
  cases e with
  | reset =>
    cases h
    exact ⟨encoder_reset_inv, decoder_reset_inv⟩
  | startEncoder cfg =>
    obtain ⟨-, hok, rfl⟩ | ⟨-, rfl⟩ := startEncoder_next h
    · exact ⟨encoderStart_encInv hok s, hs.decoder⟩
    · exact hs
  | startDecoder =>
    obtain ⟨-, rfl⟩ | ⟨-, rfl⟩ := startDecoder_next h
    · exact ⟨hs.encoder, decoderStart_decInv s⟩
    · exact hs
  | offerPixel w | offerByte b | setEos l | setByteSinkReady l | setPixSinkReady l | select b =>
    cases h
    exact ⟨hs.encoder, hs.decoder⟩

/-- Settles O44: both blocks stand in IDLE with empty caches; the values the spec leaves open are the
model's zeros (log entries 1 and 2). -/
theorem resetMeetsTheInvariant : Obligations.ResetMeetsTheInvariant :=
  ⟨encoder_reset_inv, decoder_reset_inv⟩

/-- Settles O45: the active block's step keeps that block's part, by the invariant's preservation over
each update, and does not touch the other block; the environment's moves write a block only at reset and at
START. -/
theorem stepKeepsTheInvariant : Obligations.StepKeepsTheInvariant := by
  intro s t hs h
  obtain ⟨e, rest, -, he⟩ | ⟨-, ha, hx⟩ | ⟨-, ha, hx⟩ := step_cases h
  · exact applyInput_inv (s := { s with inputs := rest }) ⟨hs.encoder, hs.decoder⟩ he
  · have hdec : t.dec = s.dec := (encoderStep_onlyEncoderMoves ha hx).dec
    exact ⟨encoderStep_encInv ha hs.encoder hx, hdec ▸ hs.decoder⟩
  · have henc : t.enc = s.enc := (decoderStep_onlyDecoderMoves ha hx).enc
    exact ⟨henc ▸ hs.encoder, decoderStep_decInv ha hs.decoder hx⟩

end Sys2Proof.Machine
end

section
/-! The frame of the encoder's elements (10_state R21, R24 to R27; 41 R166; 42 R183, R184): what each one
leaves unchanged, register by register. -/

namespace Sys2Proof.Machine

section

variable {s t : State} {i : Instr}

theorem EncoderPerforms.cfg_eq (h : EncoderPerforms s i t) : t.enc.cfg = s.enc.cfg := by
  cases h with
  | header | run | endMarker => rfl
  | index | literal => simp

theorem EncoderPerforms.byteSink_extends (h : EncoderPerforms s i t) :
    ∃ bs, t.byteSink = s.byteSink ++ bs := by
  cases h with
  | header | run => exact ⟨_, rfl⟩
  | endMarker => exact ⟨_, List.append_assoc ..⟩
  | index | literal =>
    obtain ⟨bs, hbs⟩ := terminateRun_byteSink s
    exact ⟨_, (congrArg (· ++ _) hbs).trans (List.append_assoc ..)⟩

theorem EncoderPerforms.report_eq (h : EncoderPerforms s i t) (hi : i ≠ .endMarker) :
    t.enc.done = s.enc.done ∧ t.enc.ok = s.enc.ok := by
  cases h with
  | header | run => exact ⟨rfl, rfl⟩
  | index | literal => simp
  | endMarker => exact absurd rfl hi

/-- HEADER and END take no pixel. -/
theorem EncoderPerforms.pixelRegisters_eq (h : EncoderPerforms s i t) (hi : i.position ≠ .operation) :
    t.enc.prev = s.enc.prev ∧ t.enc.run = s.enc.run ∧ t.enc.pixLeft = s.enc.pixLeft ∧
      t.pixSource = s.pixSource := by
  cases h with
  | header | endMarker => exact ⟨rfl, rfl, rfl, rfl⟩
  | index | run => exact absurd rfl hi
  | literal hst => exact absurd (storesColour_position hst) hi

theorem EncoderPerforms.cache_eq (h : EncoderPerforms s i t) (hi : storesColour i = false) :
    t.enc.cache = s.enc.cache := by
  cases h with
  | header | run | endMarker => rfl
  | index => simp
  | literal hst => simp [hst] at hi

/-- A literal form writes the offered pixel's slot and no other. -/
theorem EncoderPerforms.cacheRead_eq_of_ne (h : EncoderPerforms s i t) {p : Pixel}
    (hp : offeredPixel s = some p) {j : Slot} (hj : j ≠ hashSlot p.toRgb) :
    cacheRead t.enc.cache j = cacheRead s.enc.cache j := by
  cases hst : storesColour i with
  | false => rw [h.cache_eq hst]
  | true =>
    cases h with
    | header | index | run | endMarker => cases hst
    | literal _ hsel =>
      obtain rfl : p = _ := Option.some.inj (hp.symm.trans hsel.offered)
      simpa using cacheRead_cacheStore_ne hj

end

/-- Settles O41: the cases of the element performed, each register by its own lemma; the rest of the state
is outside the encoder. -/
theorem encoderFrame : Obligations.EncoderFrame := by
  intro i s t ha h
  have frame := exec_onlyEncoderMoves ha h
  have hx := exec_encoderPerforms ha h
  exact ⟨frame.dec, frame.byteSource, frame.eos, frame.pixSink, frame.pixSinkReady,
    frame.byteSinkReady, frame.active, frame.inputs, frame.deltaWrap, hx.cfg_eq,
    hx.byteSink_extends, hx.report_eq, hx.pixelRegisters_eq, fun hi j => by rw [hx.cache_eq hi],
    fun p hp j hj => hx.cacheRead_eq_of_ne hp hj⟩

end Sys2Proof.Machine
end

section
/-! The frame of the decoder's elements (10_state R36, R38 to R40; 46 R270 to R277; 60 R308): what each one
leaves unchanged, register by register. -/

namespace Sys2Proof.Machine

section

variable {s t : State} {i : Instr}

theorem DecoderPerforms.headerRegisters_eq (h : DecoderPerforms s i t) (hi : i.position ≠ .start) :
    t.dec.hdr = s.dec.hdr ∧ t.dec.hdrValid = s.dec.hdrValid := by
  cases h with
  | header | badHeader => exact absurd rfl hi
  | index | literal | run | reservedFf | endMarker => exact ⟨rfl, rfl⟩

theorem DecoderPerforms.report_eq (h : DecoderPerforms s i t) (hi : producesPixel i = true) :
    t.dec.done = s.dec.done ∧ t.dec.valid = s.dec.valid ∧ t.dec.fault = s.dec.fault := by
  cases h with
  | header | badHeader | reservedFf | endMarker => cases hi
  | index | literal | run => exact ⟨rfl, rfl, rfl⟩

/-- No element carries alpha (46 R276). -/
theorem DecoderPerforms.prev_alpha_eq (h : DecoderPerforms s i t) : t.dec.prev.a = s.dec.prev.a := by
  cases h <;> rfl

theorem DecoderPerforms.run_eq (h : DecoderPerforms s i t) (hi : ∀ n, i ≠ .run n) :
    t.dec.run = s.dec.run := by
  cases h with
  | run => exact absurd rfl (hi _)
  | header | badHeader | index | literal | reservedFf | endMarker => rfl

theorem storesColour_producesPixel (h : storesColour i = true) : producesPixel i = true := by
  cases i with
  | diff | luma | rgb => rfl
  | header | index | run | reservedFf | endMarker => cases h

theorem DecoderPerforms.prev_pixSink_eq (h : DecoderPerforms s i t) (hi : producesPixel i = false) :
    t.dec.prev = s.dec.prev ∧ t.pixSink = s.pixSink := by
  cases h with
  | header | badHeader | reservedFf | endMarker => exact ⟨rfl, rfl⟩
  | index | run => cases hi
  | literal hst => simp [storesColour_producesPixel hst] at hi

theorem DecoderPerforms.pixLeft_eq (h : DecoderPerforms s i t) (hi : producesPixel i = false)
    (hpos : i.position ≠ .start) : t.dec.pixLeft = s.dec.pixLeft := by
  cases h with
  | header | badHeader => exact absurd rfl hpos
  | index | run => cases hi
  | literal hst => simp [storesColour_producesPixel hst] at hi
  | reservedFf | endMarker => rfl

theorem DecoderPerforms.cache_eq (h : DecoderPerforms s i t) (hi : storesColour i = false) :
    t.dec.cache = s.dec.cache := by
  cases h with
  | header | badHeader | index | run | reservedFf | endMarker => rfl
  | literal hst => simp [hst] at hi

/-- A literal form writes the slot of the colour it leaves in `prev`, and no other (46 R275). -/
theorem DecoderPerforms.cacheRead_eq_of_ne (h : DecoderPerforms s i t) {j : Slot}
    (hj : j ≠ hashSlot t.dec.prev.toRgb) : cacheRead t.dec.cache j = cacheRead s.dec.cache j := by
  cases h with
  | header | badHeader | index | run | reservedFf | endMarker => rfl
  | literal => exact cacheRead_cacheStore_ne hj

end

/-- Settles O42: the cases of the element performed, each register by its own lemma; the rest of the state
is outside the decoder. -/
theorem decoderFrame : Obligations.DecoderFrame := by
  intro i s t ha h
  have frame := exec_onlyDecoderMoves ha h
  have hx := exec_decoderPerforms ha h
  exact ⟨frame.enc, frame.pixSource, frame.byteSink, frame.byteSinkReady, frame.eos,
    frame.pixSinkReady, frame.active, frame.inputs, frame.deltaWrap, hx.headerRegisters_eq, hx.report_eq,
    hx.prev_alpha_eq, hx.run_eq, hx.prev_pixSink_eq, hx.pixLeft_eq, fun hi j => by rw [hx.cache_eq hi],
    fun j hj => hx.cacheRead_eq_of_ne hj⟩

end Sys2Proof.Machine
end

section
/-! The cache store's reasoning rule (20_memory R62): what every slot reads after a store. -/

namespace Sys2Proof.Machine

/-- Settles O15: the slot is the stored colour's own, where the canonical form leaves no older entry, or
another, which the store does not touch. -/
theorem cacheReadAfterStore : Obligations.CacheReadAfterStore := by
  intro m c i hwf
  split
  case isTrue hslot =>
    subst hslot
    exact cacheRead_cacheStore_same hwf c
  case isFalse hslot => exact cacheRead_cacheStore_ne hslot

end Sys2Proof.Machine
end

section
/-! The fields of the wire format read in both directions (30_encoding R94 to R99; 20_memory R64): a biased
field and its delta, the bytes of a header's integer, and a tag byte and its fields. -/

namespace Sys2Proof

open Machine (pixelWord pixelWord_alpha wordPixelRgb wordPixelRgb_pixelWord)

/-! ### Biased fields (30_encoding R99) -/

theorem inRange_iff {lo hi d : Int} : inRange lo hi d = true ↔ lo ≤ d ∧ d ≤ hi := by
  simp [inRange]

/-- A delta in the range that a field's width and bias give is what its field holds. -/
theorem unbiased_biased {n : Nat} {lo hi bias d : Int} (hlo : lo + bias = 0)
    (hhi : hi + bias + 1 = 2 ^ n) (hd : inRange lo hi d = true) :
    unbiased bias (biased n bias d) = d := by
  obtain ⟨hlod, hdhi⟩ := inRange_iff.mp hd
  have hnonneg : 0 ≤ d + bias := by omega
  have hmod : (d + bias) % ((2 ^ n : Nat) : Int) = d + bias := by
    push_cast
    exact Int.emod_eq_of_lt hnonneg (by omega)
  rw [unbiased, biased, BitVec.toNat_ofInt, hmod, Int.toNat_of_nonneg hnonneg, Int.add_sub_cancel]

/-- The delta a field holds lies in the range that the field's width and bias give. -/
theorem inRange_unbiased {n : Nat} {lo hi bias : Int} (hlo : lo + bias = 0)
    (hhi : hi + bias + 1 = 2 ^ n) (f : BitVec n) : inRange lo hi (unbiased bias f) = true := by
  have hf : (f.toNat : Int) < 2 ^ n := by exact_mod_cast f.isLt
  rw [inRange_iff, unbiased]
  omega

/-- A field is the biased form of the delta it holds. -/
@[simp] theorem biased_unbiased {n : Nat} (bias : Int) (f : BitVec n) :
    biased n bias (unbiased bias f) = f := by
  rw [biased, unbiased, Int.sub_add_cancel, BitVec.ofInt_natCast, BitVec.ofNat_toNat,
    BitVec.setWidth_eq]

/-! ### The lengths of a RUN (30_encoding R97) -/

theorem wf_run_iff {n : Nat} : (Instr.run n).wf = true ↔ 1 ≤ n ∧ n ≤ 62 := by
  rw [Instr.wf, Bool.and_eq_true, decide_eq_true_eq, decide_eq_true_eq, Config.runMax]

/-! ### The header's integers (20_memory R64) -/

/-- The four bytes of an integer give it back. -/
theorem ofBigEndian_extractLsb' (w : Dim) :
    ofBigEndian (w.extractLsb' 24 8) (w.extractLsb' 16 8) (w.extractLsb' 8 8) (w.extractLsb' 0 8) = w := by
  rw [ofBigEndian, BitVec.extractLsb'_append_extractLsb'_eq_extractLsb' (by rfl),
    BitVec.extractLsb'_append_extractLsb'_eq_extractLsb' (by rfl),
    BitVec.extractLsb'_append_extractLsb'_eq_extractLsb' (by rfl)]
  exact BitVec.extractLsb'_eq_self

/-- Four bytes are the bytes of the integer they make, which is a pixel port's word in its layout. -/
theorem toBigEndian_ofBigEndian (b0 b1 b2 b3 : Byte) :
    toBigEndian (ofBigEndian b0 b1 b2 b3) = [b0, b1, b2, b3] := by
  have hword : ∀ w : Dim, toBigEndian w =
      [(wordPixelRgb w).r, (wordPixelRgb w).g, (wordPixelRgb w).b, w.extractLsb' 0 8] := fun _ => rfl
  have hpixel : ofBigEndian b0 b1 b2 b3 = pixelWord ⟨⟨b0, b1, b2⟩, b3⟩ := rfl
  rw [hpixel, hword, wordPixelRgb_pixelWord, pixelWord_alpha]

/-! ### The tag byte and its fields (30_encoding R94 to R97) -/

/-- A byte is its two-bit tag and its six low bits. -/
theorem tag_append_low (t : Byte) : t.extractLsb' 6 2 ++ t.extractLsb' 0 6 = t := by
  rw [BitVec.extractLsb'_append_extractLsb'_eq_extractLsb' (by rfl)]
  exact BitVec.extractLsb'_eq_self

/-- A byte is its two-bit tag and DIFF's three fields. -/
theorem tag_append_diffFields (t : Byte) :
    t.extractLsb' 6 2 ++ t.extractLsb' 4 2 ++ t.extractLsb' 2 2 ++ t.extractLsb' 0 2 = t := by
  rw [BitVec.extractLsb'_append_extractLsb'_eq_extractLsb' (by rfl),
    BitVec.extractLsb'_append_extractLsb'_eq_extractLsb' (by rfl),
    BitVec.extractLsb'_append_extractLsb'_eq_extractLsb' (by rfl)]
  exact BitVec.extractLsb'_eq_self

/-- A byte is its two halves, LUMA's relative fields. -/
theorem half_append_half (u : Byte) : u.extractLsb' 4 4 ++ u.extractLsb' 0 4 = u := by
  rw [BitVec.extractLsb'_append_extractLsb'_eq_extractLsb' (by rfl)]
  exact BitVec.extractLsb'_eq_self

/-- The byte put together from DIFF's fields holds them. -/
theorem extractLsb'_diffFields (top r g b : BitVec 2) :
    (top ++ r ++ g ++ b).extractLsb' 6 2 = top ∧ (top ++ r ++ g ++ b).extractLsb' 4 2 = r ∧
      (top ++ r ++ g ++ b).extractLsb' 2 2 = g ∧ (top ++ r ++ g ++ b).extractLsb' 0 2 = b := by
  refine ⟨?_, ?_, ?_, BitVec.extractLsb'_append_eq_right⟩
  · rw [BitVec.extractLsb'_append_eq_of_le (by omega), BitVec.extractLsb'_append_eq_of_le (by omega)]
    exact BitVec.extractLsb'_append_eq_left
  · rw [BitVec.extractLsb'_append_eq_of_le (by omega), BitVec.extractLsb'_append_eq_of_le (by omega)]
    exact BitVec.extractLsb'_append_eq_right
  · rw [BitVec.extractLsb'_append_eq_of_le (by omega)]
    exact BitVec.extractLsb'_append_eq_right

/-- The byte of a RUN of 1 to 62 is C0 plus its length less 1, below the whole-byte tags (30_encoding
R97). -/
theorem runTag_toNat {n : Nat} (hn : n ≤ 62) :
    (0b11#2 ++ BitVec.ofNat 6 (n - 1)).toNat = 0xC0 + (n - 1) := by
  rw [BitVec.toNat_append, ← Nat.shiftLeft_add_eq_or_of_lt (BitVec.isLt _), BitVec.toNat_ofNat (n - 1),
    Nat.mod_eq_of_lt (by omega)]
  rfl

end Sys2Proof
end

section
/-! Decoding inverts encoding and encoding inverts decoding (30_encoding R91 to R102). -/

namespace Sys2Proof

/-! ### What each tag decodes to (45 R247, R248) -/

section
variable {t : Byte}

/-- The two whole-byte tags begin with RUN's two bits (30_encoding R102). -/
theorem ne_wholeByteTags (htop : t.extractLsb' 6 2 ≠ 0b11#2) : t ≠ tagRgb ∧ t ≠ tagReserved :=
  ⟨fun h => htop (h ▸ rfl), fun h => htop (h ▸ rfl)⟩

theorem ne_wholeByteTags_of_lt (hlt : t.toNat < 0xFE) : t ≠ tagRgb ∧ t ≠ tagReserved :=
  ⟨fun h => absurd (h ▸ hlt) (by decide), fun h => absurd (h ▸ hlt) (by decide)⟩

theorem decodeOperation_index (htop : t.extractLsb' 6 2 = 0b00#2) (rest : List Byte) :
    decodeOperation (t :: rest) = .ok (.index (t.extractLsb' 0 6), rest) := by
  obtain ⟨hrgb, hres⟩ := ne_wholeByteTags (t := t) (by simp [htop])
  simp [decodeOperation, hrgb, hres, htop]

theorem decodeOperation_diff (htop : t.extractLsb' 6 2 = 0b01#2) (rest : List Byte) :
    decodeOperation (t :: rest) =
      .ok (.diff (unbiased biasDiff (t.extractLsb' 4 2)) (unbiased biasDiff (t.extractLsb' 2 2))
        (unbiased biasDiff (t.extractLsb' 0 2)), rest) := by
  obtain ⟨hrgb, hres⟩ := ne_wholeByteTags (t := t) (by simp [htop])
  simp [decodeOperation, hrgb, hres, htop]

theorem decodeOperation_luma (htop : t.extractLsb' 6 2 = 0b10#2) (u : Byte) (rest : List Byte) :
    decodeOperation (t :: u :: rest) =
      .ok (.luma (unbiased biasLumaG (t.extractLsb' 0 6)) (unbiased biasLumaRB (u.extractLsb' 4 4))
        (unbiased biasLumaRB (u.extractLsb' 0 4)), rest) := by
  obtain ⟨hrgb, hres⟩ := ne_wholeByteTags (t := t) (by simp [htop])
  simp [decodeOperation, hrgb, hres, htop]

theorem decodeOperation_run (hrgb : t ≠ tagRgb) (hres : t ≠ tagReserved)
    (htop : t.extractLsb' 6 2 = 0b11#2) (rest : List Byte) :
    decodeOperation (t :: rest) = .ok (.run ((t.extractLsb' 0 6).toNat + 1), rest) := by
  simp [decodeOperation, hrgb, hres, htop]

end

/-! ### Decoding inverts encoding -/

theorem decode_encode_header (w h : Dim) (c s : Byte) (rest : List Byte) :
    decode .start (encode (.header w h c s) ++ rest) = .ok (.header w h c s, rest) := by
  conv => rhs; rw [← ofBigEndian_extractLsb' w, ← ofBigEndian_extractLsb' h]
  rfl

theorem decode_encode_index (slot : Slot) (rest : List Byte) :
    decode .operation (encode (.index slot) ++ rest) = .ok (.index slot, rest) := by
  have h := decodeOperation_index (t := 0b00#2 ++ slot) BitVec.extractLsb'_append_eq_left rest
  rwa [BitVec.extractLsb'_append_eq_right] at h

theorem decode_encode_diff {dr dg db : Int} (hwf : (Instr.diff dr dg db).wf = true)
    (rest : List Byte) :
    decode .operation (encode (.diff dr dg db) ++ rest) = .ok (.diff dr dg db, rest) := by
  simp only [Instr.wf, Bool.and_eq_true] at hwf
  obtain ⟨⟨hr, hg⟩, hb⟩ := hwf
  obtain ⟨htop, hfr, hfg, hfb⟩ := extractLsb'_diffFields 0b01#2 (biased 2 biasDiff dr)
    (biased 2 biasDiff dg) (biased 2 biasDiff db)
  have h := decodeOperation_diff htop rest
  rwa [hfr, hfg, hfb, unbiased_biased rfl rfl hr, unbiased_biased rfl rfl hg,
    unbiased_biased rfl rfl hb] at h

theorem decode_encode_luma {dg drg dbg : Int} (hwf : (Instr.luma dg drg dbg).wf = true)
    (rest : List Byte) :
    decode .operation (encode (.luma dg drg dbg) ++ rest) = .ok (.luma dg drg dbg, rest) := by
  simp only [Instr.wf, Bool.and_eq_true] at hwf
  obtain ⟨⟨hg, hrg⟩, hbg⟩ := hwf
  have h := decodeOperation_luma (t := 0b10#2 ++ biased 6 biasLumaG dg)
    BitVec.extractLsb'_append_eq_left (biased 4 biasLumaRB drg ++ biased 4 biasLumaRB dbg) rest
  rwa [BitVec.extractLsb'_append_eq_right, BitVec.extractLsb'_append_eq_left,
    BitVec.extractLsb'_append_eq_right, unbiased_biased rfl rfl hg, unbiased_biased rfl rfl hrg,
    unbiased_biased rfl rfl hbg] at h

theorem decode_encode_run {n : Nat} (hwf : (Instr.run n).wf = true) (rest : List Byte) :
    decode .operation (encode (.run n) ++ rest) = .ok (.run n, rest) := by
  obtain ⟨hpos, hmax⟩ := wf_run_iff.mp hwf
  have hlow : (0b11#2 ++ BitVec.ofNat 6 (n - 1)).toNat < 0xFE := by
    rw [runTag_toNat hmax]
    omega
  obtain ⟨hrgb, hres⟩ := ne_wholeByteTags_of_lt hlow
  have h := decodeOperation_run hrgb hres BitVec.extractLsb'_append_eq_left rest
  rwa [BitVec.extractLsb'_append_eq_right, BitVec.toNat_ofNat, Nat.mod_eq_of_lt (by omega),
    Nat.sub_add_cancel hpos] at h

/-- Settles O9, kind by kind: the tag selects the kind's arm, and each field holds its operand. -/
theorem decodeInvertsEncode : Obligations.DecodeInvertsEncode := by
  intro i rest hwf
  cases i with
  | header w h c s => exact decode_encode_header w h c s rest
  | index slot => exact decode_encode_index slot rest
  | diff dr dg db => exact decode_encode_diff hwf rest
  | luma dg drg dbg => exact decode_encode_luma hwf rest
  | run n => exact decode_encode_run hwf rest
  | rgb r g b => rfl
  | reservedFf => rfl
  | endMarker => rfl

end Sys2Proof
end

section
/-! Encoding inverts decoding (30_encoding R93 to R98, R102): what the decoder accepts is the encoding of a
well-formed element. With the other direction, what is accepted does not depend on the bytes that follow. -/

namespace Sys2Proof

/-- The bytes begin with the encoding of a well-formed element that stands at the position. -/
structure EncodedAt (p : Position) (bs : List Byte) (i : Instr) (rest : List Byte) : Prop where
  wf : i.wf = true
  bytes : bs = encode i ++ rest
  position : i.position = p

theorem decodeMagic_ok {bs rest : List Byte} (h : decodeMagic bs = .ok rest) :
    bs = magicBytes ++ rest := by
  unfold decodeMagic at h
  split at h
  · rename_i m0 m1 m2 m3 bs'
    split at h
    · rename_i hm
      cases h
      exact congrArg (· ++ rest) hm
    · cases h
  · cases h

/-- The ten bytes after the magic are those of a header, whatever they hold. -/
theorem decodeHeaderFields_ok {bs rest : List Byte} {i : Instr}
    (h : decodeHeaderFields bs = .ok (i, rest)) : EncodedAt .start (magicBytes ++ bs) i rest := by
  unfold decodeHeaderFields at h
  split at h
  · cases h
    refine ⟨rfl, ?_, rfl⟩
    rw [encode, toBigEndian_ofBigEndian, toBigEndian_ofBigEndian]
    rfl
  · cases h

theorem decodeTrailer_ok {bs rest : List Byte} {i : Instr} (h : decodeTrailer bs = .ok (i, rest)) :
    EncodedAt .trailer bs i rest := by
  unfold decodeTrailer at h
  split at h
  · split at h
    · rename_i hm
      cases h
      exact ⟨rfl, congrArg (· ++ rest) hm, rfl⟩
    · cases h
  · cases h

/-! ### The operations, by tag (30_encoding R102) -/

section
variable {t : Byte}

theorem encodedAt_index (htop : t.extractLsb' 6 2 = 0b00#2) (rest : List Byte) :
    EncodedAt .operation (t :: rest) (.index (t.extractLsb' 0 6)) rest :=
  ⟨rfl, congrArg (· :: rest) ((tag_append_low t).symm.trans (by rw [htop])), rfl⟩

theorem encodedAt_diff (htop : t.extractLsb' 6 2 = 0b01#2) (rest : List Byte) :
    EncodedAt .operation (t :: rest)
      (.diff (unbiased biasDiff (t.extractLsb' 4 2)) (unbiased biasDiff (t.extractLsb' 2 2))
        (unbiased biasDiff (t.extractLsb' 0 2))) rest where
  wf := by
    have hfield (f : BitVec 2) : inRange (-2) 1 (unbiased biasDiff f) = true := inRange_unbiased rfl rfl f
    simp only [Instr.wf, hfield, Bool.and_self]
  bytes := by
    simp only [encode, biased_unbiased, ← htop]
    exact congrArg (· :: rest) (tag_append_diffFields t).symm
  position := rfl

theorem encodedAt_luma (htop : t.extractLsb' 6 2 = 0b10#2) (u : Byte) (rest : List Byte) :
    EncodedAt .operation (t :: u :: rest)
      (.luma (unbiased biasLumaG (t.extractLsb' 0 6)) (unbiased biasLumaRB (u.extractLsb' 4 4))
        (unbiased biasLumaRB (u.extractLsb' 0 4))) rest where
  wf := by
    have hg : inRange (-32) 31 (unbiased biasLumaG (t.extractLsb' 0 6)) = true :=
      inRange_unbiased rfl rfl _
    have hrel (f : BitVec 4) : inRange (-8) 7 (unbiased biasLumaRB f) = true := inRange_unbiased rfl rfl f
    simp only [Instr.wf, hg, hrel, Bool.and_self]
  bytes := by
    simp only [encode, biased_unbiased, ← htop]
    exact congrArg₂ (· :: · :: rest) (tag_append_low t).symm (half_append_half u).symm
  position := rfl

theorem encodedAt_run (hrgb : t ≠ tagRgb) (hres : t ≠ tagReserved)
    (htop : t.extractLsb' 6 2 = 0b11#2) (rest : List Byte) :
    EncodedAt .operation (t :: rest) (.run ((t.extractLsb' 0 6).toNat + 1)) rest where
  wf := wf_run_iff.mpr ⟨Nat.succ_pos _, Nat.succ_le_succ (Machine.runField_le_61 hrgb hres htop)⟩
  bytes := by
    simp only [encode, Nat.add_sub_cancel, BitVec.ofNat_toNat, BitVec.setWidth_eq, ← htop]
    exact congrArg (· :: rest) (tag_append_low t).symm
  position := rfl

/-- With the tags 11, 00 and 01 excluded, only LUMA's is left. -/
theorem top_eq_luma (h3 : t.extractLsb' 6 2 ≠ 0b11#2) (h0 : t.extractLsb' 6 2 ≠ 0b00#2)
    (h1 : t.extractLsb' 6 2 ≠ 0b01#2) : t.extractLsb' 6 2 = 0b10#2 := by
  generalize t.extractLsb' 6 2 = top at *
  revert top
  decide

end

theorem decodeOperation_ok {bs rest : List Byte} {i : Instr}
    (h : decodeOperation bs = .ok (i, rest)) : EncodedAt .operation bs i rest := by
  cases bs with
  | nil => cases h
  | cons t bs =>
    simp only [decodeOperation] at h
    split_ifs at h with hrgb hres h3 h0 h1
    · subst hrgb
      split at h <;> cases h
      exact ⟨rfl, rfl, rfl⟩
    · subst hres
      cases h
      exact ⟨rfl, rfl, rfl⟩
    · cases h
      exact encodedAt_run hrgb hres h3 rest
    · cases h
      exact encodedAt_index h0 rest
    · cases h
      exact encodedAt_diff h1 rest
    · split at h <;> cases h
      exact encodedAt_luma (top_eq_luma h3 h0 h1) _ rest

/-! ### Every position -/

/-- After the magic a stream reads as the header's fields (45 R242, R243). -/
theorem decode_start_magicBytes (bs : List Byte) :
    decode .start (magicBytes ++ bs) = decode .afterMagic bs := rfl

theorem decodeStart_ok {bs rest : List Byte} {i : Instr} (h : decode .start bs = .ok (i, rest)) :
    ∃ fields, bs = magicBytes ++ fields ∧ decode .afterMagic fields = .ok (i, rest) := by
  simp only [decode] at h
  split at h
  · exact ⟨_, decodeMagic_ok (by assumption), h⟩
  · cases h

theorem decode_ok {p : Position} {bs rest : List Byte} {i : Instr} (hp : p ≠ .afterMagic)
    (h : decode p bs = .ok (i, rest)) : EncodedAt p bs i rest := by
  cases p with
  | start =>
    obtain ⟨fields, rfl, hf⟩ := decodeStart_ok h
    exact decodeHeaderFields_ok hf
  | afterMagic => exact absurd rfl hp
  | operation => exact decodeOperation_ok h
  | trailer => exact decodeTrailer_ok h

/-- Settles O10: the bytes at a position are an encoding there; after the magic they are a header's with the
magic before them. -/
theorem encodeInvertsDecode : Obligations.EncodeInvertsDecode := by
  intro p bs i rest h
  by_cases hp : p = .afterMagic
  · subst hp
    obtain ⟨hwf, hbytes, hpos⟩ := decodeHeaderFields_ok h
    exact ⟨hwf, fun _ => ⟨hbytes, hpos⟩, fun hne => absurd rfl hne⟩
  · obtain ⟨hwf, hbytes, hpos⟩ := decode_ok hp h
    exact ⟨hwf, fun hm => absurd hm hp, fun _ => ⟨hbytes, hpos⟩⟩

end Sys2Proof
end

section
/-! An element at the decoder's position is what its step executes (10_state R37; 45 R245), and an
opcode-table word is placed there (log entries 8 and 12). -/

namespace Sys2Proof.Machine

/-! ### The bytes that follow an element -/

/-- What is read at a position does not depend on the bytes after it. -/
theorem decode_append {p : Position} {bs rest : List Byte} {i : Instr}
    (h : decode p bs = .ok (i, rest)) (more : List Byte) :
    decode p (bs ++ more) = .ok (i, rest ++ more) := by
  have hstands {q : Position} {cs : List Byte} (hq : q ≠ .afterMagic)
      (hc : decode q cs = .ok (i, rest)) : decode q (cs ++ more) = .ok (i, rest ++ more) := by
    obtain ⟨hwf, rfl, rfl⟩ := decode_ok hq hc
    rw [List.append_assoc]
    exact decodeInvertsEncode i (rest ++ more) hwf
  by_cases hp : p = .afterMagic
  · subst hp
    rw [← decode_start_magicBytes] at h ⊢
    rw [← List.append_assoc]
    exact hstands (by decide) h
  · exact hstands hp h

/-! ### The step at the decoder's position -/

section
variable {s : State} {p : Position}

/-- The decoder fetches at its position; in the pixel phase it takes a tag. -/
theorem decoderStep_eq_fetchAndExec (hp : fetchPosition s.dec.phase = some p)
    (hpix : s.dec.phase = .pixels → s.dec.pixLeft ≠ 0 ∧ s.dec.run = 0) :
    decoderStep s = fetchAndExec p s := by
  cases hph : s.dec.phase with
  | idle | magic =>
    rw [hph] at hp
    cases hp
  | header | trailer =>
    rw [hph] at hp
    cases hp
    simp only [decoderStep, hph]
  | pixels =>
    obtain ⟨hleft, hrun⟩ := hpix hph
    rw [hph] at hp
    cases hp
    simp only [decoderStep, hph, pixelIteration, if_neg hleft, if_pos hrun]

/-- An element that is fetched is executed, if it need not wait for the pixel sink. -/
theorem fetchAndExec_of_decode {i : Instr} {rest : List Byte}
    (hd : decode p s.byteSource = .ok (i, rest))
    (hready : producesPixel i = true → s.pixSinkReady = true) : fetchAndExec p s = exec i s := by
  have hnowait : (producesPixel i && !s.pixSinkReady) = false := by
    cases hpx : producesPixel i with
    | false => rfl
    | true => rw [hready hpx]; rfl
  simp only [fetchAndExec, hd, hnowait, Bool.false_eq_true, if_false]

end

/-! ### Placed bytes -/

/-- Bytes that are an element at a position are, once placed, that element where the placed phase
fetches. -/
theorem decode_placedBytes {p : Position} {bs rest : List Byte} {i : Instr}
    (h : decode p bs = .ok (i, rest)) (more : List Byte) :
    ∃ q, fetchPosition (placedPhase p) = some q ∧
      decode q (placedBytes p bs ++ more) = .ok (i, rest ++ more) := by
  cases p with
  | start =>
    obtain ⟨fields, rfl, hf⟩ := decodeStart_ok h
    exact ⟨.afterMagic, rfl, decode_append hf more⟩
  | afterMagic => exact ⟨.afterMagic, rfl, decode_append h more⟩
  | operation => exact ⟨.operation, rfl, decode_append h more⟩
  | trailer => exact ⟨.trailer, rfl, decode_append h more⟩

/-- The step of a state in which an element's bytes are placed is that element. -/
theorem step_placeBytes {p : Position} {bs rest : List Byte} {i : Instr}
    (h : decode p bs = .ok (i, rest)) (s : State) :
    step (placeBytes p bs s) = exec i (placeBytes p bs s) := by
  obtain ⟨q, hq, hd⟩ := decode_placedBytes h (s.byteSource.drop (placedBytes p bs).length)
  have hleft : (placeBytes p bs s).dec.pixLeft ≠ 0 := by
    simp only [placeBytes]
    split
    · decide
    · assumption
  calc step (placeBytes p bs s)
      = decoderStep (placeBytes p bs s) := step_of_no_input rfl
    _ = fetchAndExec q (placeBytes p bs s) := decoderStep_eq_fetchAndExec hq fun _ => ⟨hleft, rfl⟩
    _ = exec i (placeBytes p bs s) := fetchAndExec_of_decode hd fun _ => rfl

theorem decodeTableWord_eq_some {nbits w : Nat} {i : Instr} (h : decodeTableWord nbits w = some i) :
    ∃ rest, decode (tableBytes nbits w).1 (tableBytes nbits w).2 = .ok (i, rest) := by
  unfold decodeTableWord at h
  split at h
  · cases h
    exact ⟨_, by assumption⟩
  · cases h

/-- Settles O7: the word's bytes read the same with the rest of the byte source after them, at the position
that the placed phase fetches at. -/
theorem placedTableWordRunsNext : Obligations.PlacedTableWordRunsNext := by
  intro s nbits w i h
  obtain ⟨rest, hd⟩ := decodeTableWord_eq_some h
  exact step_placeBytes hd s

end Sys2Proof.Machine
end

section
/-! The elements that the encoder issues (30_encoding R101, R103; 41 R163, R164): well-formed, never the
reserved tag, the RUN bytes in their ranges. -/

namespace Sys2Proof.Machine

/-! ### First bytes -/

/-- No encoding but the reserved tag's own begins with FF, for decoding would read it as that tag (30_encoding
R101). -/
theorem encode_head?_ne_reserved {i : Instr} (hwf : i.wf = true) (hne : i ≠ .reservedFf) :
    (encode i).head? ≠ some tagReserved := by
  intro hff
  obtain ⟨bs, hbs⟩ := List.head?_eq_some_iff.mp hff
  have hdec : decode i.position (tagReserved :: bs) = .ok (i, []) := by
    rw [← hbs, ← List.append_nil (encode i)]
    exact decodeInvertsEncode i [] hwf
  cases i with
  | header | endMarker => exact absurd (Option.some.inj hff) (by decide)
  | reservedFf => exact hne rfl
  | index | diff | luma | run | rgb =>
    have hres : decode .operation (tagReserved :: bs) = .ok (.reservedFf, bs) := rfl
    cases hres.symm.trans hdec

/-- A RUN of 1 to 62 is one byte, C0 plus its length less 1 (30_encoding R97). -/
theorem encode_run_byte {n : Nat} (hn : n ≤ 62) :
    ∃ b : Byte, encode (.run n) = [b] ∧ b.toNat = 0xC0 + (n - 1) :=
  ⟨_, rfl, runTag_toNat hn⟩

/-! ### Well-formedness of what is issued -/

/-- The range tests of the muxer are those of the operands' encodings (43 R202, R203). -/
theorem wf_literalOf (wrap : Bool) (prev c : Rgb) : (literalOf wrap prev c).wf = true := by
  unfold literalOf
  split
  · assumption
  · split
    · assumption
    · rfl

theorem storesColour_literalOf (wrap : Bool) (prev c : Rgb) :
    storesColour (literalOf wrap prev c) = true := by
  unfold literalOf
  split
  · rfl
  · split <;> rfl

theorem wf_of_muxer {wrap : Bool} {e : Encoder} {c : Rgb} {i : Instr} (hrun : e.run.toNat ≤ 61)
    (h : muxer wrap e c = some i) : i.wf = true ∧ i ≠ .reservedFf := by
  obtain ⟨-, -, rfl⟩ | ⟨-, -, rfl⟩ | ⟨-, -, rfl⟩ := muxer_cases h
  · exact ⟨wf_run_iff.mpr ⟨Nat.succ_pos _, Nat.succ_le_succ hrun⟩, nofun⟩
  · exact ⟨rfl, nofun⟩
  · refine ⟨wf_literalOf .., fun hres => ?_⟩
    have hst := storesColour_literalOf wrap e.prev.toRgb c
    rw [hres] at hst
    cases hst

theorem wf_of_issued {s : State} {i : Instr} (hrun : s.enc.run.toNat ≤ 61) (h : issued s = some i) :
    i.wf = true ∧ i ≠ .reservedFf := by
  obtain ⟨-, rfl⟩ | ⟨-, p, -, hm⟩ | ⟨-, rfl⟩ := issued_cases h
  · exact ⟨rfl, nofun⟩
  · exact wf_of_muxer hrun hm
  · exact ⟨rfl, nofun⟩

/-! ### The pending RUN byte of a breaking pixel (41 R163) -/

theorem exec_of_storesColour {s : State} {i : Instr} (ha : s.active = .encoder)
    (hst : storesColour i = true) : exec i s = encoderLiteral i s := by
  cases i with
  | diff dr dg db => exact exec_diff_of_encoder ha dr dg db
  | luma dg drg dbg => exact exec_luma_of_encoder ha dg drg dbg
  | rgb r g b => exact exec_rgb_of_encoder ha r g b
  | header | index | run | reservedFf | endMarker => cases hst

theorem terminateRun_byteSink_of_pending {s : State} (hrun : s.enc.run ≠ 0) :
    (terminateRun s).byteSink = s.byteSink ++ portBytes (encode (.run s.enc.run.toNat)) := by
  rw [terminateRun, if_neg hrun]
  rfl

/-- For a breaking pixel exec of what is issued completes and sends its bytes after the pending run's. -/
theorem exec_of_breakingPixel {s : State} {p : Pixel} {i : Instr} (ha : s.active = .encoder)
    (hph : s.enc.phase = .pixels) (hleft : s.enc.pixLeft ≠ 0) (hp : offeredPixel s = some p)
    (hbreak : p.toRgb ≠ s.enc.prev.toRgb) (hi : issued s = some i) :
    ∃ t, exec i s = .next t ∧ t.byteSink = (terminateRun s).byteSink ++ portBytes (encode i) := by
  obtain ⟨heq, -, -⟩ | ⟨-, -, rfl⟩ | ⟨-, -, rfl⟩ := muxer_cases (issued_pixels hph hp ▸ hi)
  · exact absurd (of_decide_eq_true heq) hbreak
  · rw [exec_index_of_encoder ha, encoderIndex, encoderOperation_of_issued hp hi hleft]
    exact ⟨_, rfl, rfl⟩
  · rw [exec_of_storesColour ha (storesColour_literalOf ..), encoderLiteral,
      encoderOperation_of_issued hp hi hleft]
    exact ⟨_, rfl, rfl⟩

/-- Settles O24: the muxer's range tests make an element well-formed, so its first byte is not the reserved
tag; both kinds of RUN byte are C0 plus a length less 1, the issued one of at most 62, the pending one of at
most 61. -/
theorem encoderIssuesLegalElements : Obligations.EncoderIssuesLegalElements := by
  intro s
  refine ⟨exec_reservedFf_of_encoder, fun i hrun hi => ?_, ?_⟩
  · obtain ⟨hwf, hne⟩ := wf_of_issued hrun hi
    refine ⟨hwf, hne, encode_head?_ne_reserved hwf hne, ?_⟩
    rintro n rfl
    obtain ⟨-, hmax⟩ := wf_run_iff.mp hwf
    obtain ⟨b, hb, hval⟩ := encode_run_byte hmax
    exact ⟨b, hb, by omega, by omega⟩
  · intro w ps i ha hph hleft hsrc hbreak hpending hrun hi
    have hp : offeredPixel s = some (readPixel s.enc.cfg.channels w) := by simp [offeredPixel, hsrc]
    obtain ⟨t, ht, hsink⟩ := exec_of_breakingPixel ha hph hleft hp hbreak hi
    obtain ⟨b, hb, hval⟩ := encode_run_byte hrun.step
    rw [terminateRun_byteSink_of_pending hpending, hb, List.append_assoc] at hsink
    exact ⟨b, t, ht, hsink, hval, by omega, by omega⟩

end Sys2Proof.Machine
end

section
/-! The spec's own example words (30_encoding R91 to R101). -/

namespace Sys2Proof

/-- Settles O8, by running the decoder on each word. -/
theorem wordsOfTheSpecDecode : Obligations.WordsOfTheSpecDecode :=
  ⟨rfl, rfl, rfl, rfl, rfl, rfl, rfl, rfl, rfl⟩

end Sys2Proof
end

section
/-! The encoder's step and its framing (40 R130 to R132, R137 to R139; 60 R316): what is issued is what the
step executes, START, HEADER and END, and a block between passes. -/

namespace Sys2Proof.Machine

/-! ### The step and the element issued -/

theorem step_of_active_encoder {s : State} (hin : s.inputs = []) (ha : s.active = .encoder) :
    step s = encoderStep s := by
  simp only [step_of_no_input hin, blockStep, ha]

/-- Settles O6: with no move pending the step is the active encoder's, and the sink takes what it issues. -/
theorem stepExecutesTheIssuedElement : Obligations.StepExecutesTheIssuedElement := by
  intro s i hin ha hready hi
  simp only [step_of_active_encoder hin ha, encoderStep, hi, hready, if_true]

/-! ### START (40 R130, R131, R139; 60 R316) -/

/-- The product of two 32-bit dimensions needs no more than 64 bits (40 R131). -/
theorem pixelCount_eq_ofNat (h : Header) :
    pixelCount h = BitVec.ofNat 64 (h.width.toNat * h.height.toNat) := by
  rw [BitVec.ofNat_mul, pixelCount, BitVec.ofNat_toNat, BitVec.ofNat_toNat]

theorem pixelCount_toNat (h : Header) : (pixelCount h).toNat = h.width.toNat * h.height.toNat := by
  have hlt : h.width.toNat * h.height.toNat < 2 ^ 32 * 2 ^ 32 :=
    Nat.mul_lt_mul'' h.width.isLt h.height.isLt
  rw [pixelCount_eq_ofNat, BitVec.toNat_ofNat]
  exact Nat.mod_eq_of_lt hlt

theorem startOk_iff {cfg : Header} :
    startOk cfg = true ↔
      1 ≤ cfg.width.toNat * cfg.height.toNat ∧ (cfg.channels = 3 ∨ cfg.channels = 4) := by
  have harea : pixelCount cfg ≠ 0 ↔ 1 ≤ cfg.width.toNat * cfg.height.toNat := by
    rw [Nat.one_le_iff_ne_zero, ← pixelCount_toNat]
    exact (BitVec.toNat_inj (y := 0)).not.symm
  simp [startOk, channelsOk, ← harea]

theorem step_of_startEncoder {s : State} {cfg : Header} {rest : List Input}
    (hin : s.inputs = .startEncoder cfg :: rest) :
    step s = startEncoder cfg { s with inputs := rest } := step_of_input hin

theorem startEncoder_of_busy {s : State} (cfg : Header) (hp : s.enc.phase ≠ .idle) :
    startEncoder cfg s = .next s := if_neg hp

theorem startEncoder_of_ok {s : State} {cfg : Header} (hp : s.enc.phase = .idle)
    (hok : startOk cfg = true) : startEncoder cfg s = .next (encoderStart cfg s) :=
  (if_pos hp).trans (if_pos hok)

theorem startEncoder_of_not_ok {s : State} {cfg : Header} (hp : s.enc.phase = .idle)
    (hok : ¬startOk cfg = true) : startEncoder cfg s = .refused .startPrecondition :=
  (if_pos hp).trans (if_neg hok)

/-- Settles O2: START lands as the step, and its preconditions are a non-zero exact product and a legal
channel count. -/
theorem encoderStartInitialisesThePass : Obligations.EncoderStartInitialisesThePass := by
  intro s cfg rest hin
  rw [step_of_startEncoder hin]
  refine ⟨fun hp harea hch => ?_, fun hp => startEncoder_of_busy cfg hp, fun hp hbad => ?_⟩
  · have hok := startOk_iff.mpr ⟨harea, hch⟩
    rw [startEncoder_of_ok (s := { s with inputs := rest }) hp hok, encoderStart, pixelCount_eq_ofNat,
      seed]
  · refine startEncoder_of_not_ok hp fun hok => ?_
    obtain ⟨harea, hch⟩ := startOk_iff.mp hok
    obtain hzero | ⟨h3, h4⟩ := hbad
    · omega
    · exact hch.elim h3 h4

/-! ### HEADER and END (40 R132, R137, R138) -/

theorem encoderFraming_of_issued {i : Instr} {u : State → State} {s : State} (hi : issued s = some i) :
    encoderFraming i u s = .next (u s) := if_pos hi

theorem toBigEndian_eq (w : Dim) :
    toBigEndian w =
      [BitVec.ofNat 8 (w.toNat / 2 ^ 24), BitVec.ofNat 8 (w.toNat / 2 ^ 16),
        BitVec.ofNat 8 (w.toNat / 2 ^ 8), BitVec.ofNat 8 w.toNat] := by
  simp only [toBigEndian, BitVec.extractLsb', Nat.shiftRight_eq_div_pow, pow_zero, Nat.div_one]

/-- Settles O17: HEADER is what the encoder issues in its phase, the dimensions as big-endian bytes. -/
theorem encoderSendsHeader : Obligations.EncoderSendsHeader := by
  intro s ha hp
  rw [exec_header_of_encoder ha, encoderFraming_of_issued (by simp only [issued, hp])]
  simp only [encode, toBigEndian_eq]
  rfl

/-- Settles O23: END is what the encoder issues in the trailer. -/
theorem encoderSendsEndMarker : Obligations.EncoderSendsEndMarker := by
  intro s ha hp
  rw [exec_endMarker_of_encoder ha, encoderFraming_of_issued (by simp only [issued, hp])]
  rfl

/-! ### Between passes (40 R138; 45 R251; 60 R309) -/

theorem encoderStep_of_idle {s t : State} (hp : s.enc.phase = .idle) (h : encoderStep s = .next t) :
    t = s := by
  obtain ht | ⟨i, hi, -, -⟩ | ⟨-, hx⟩ := encoderStep_next h
  · exact ht
  · simp [issued, hp] at hi
  · obtain ht | ⟨p, hpix, -⟩ := extendRun_next hx
    · exact ht
    · simp [hp] at hpix

theorem decoderStep_of_idle {s t : State} (hp : s.dec.phase = .idle) (h : decoderStep s = .next t) :
    t = s := by
  simp only [decoderStep, hp] at h
  cases h
  rfl

/-- Settles O48: a move other than reset and the block's START does not write the block, a step of the other
block does not either, and in IDLE the block itself waits. -/
theorem reportsHoldUntilStartOrReset : Obligations.ReportsHoldUntilStartOrReset := by
  intro s t h
  obtain ⟨e, rest, hin, he⟩ | ⟨-, ha, hx⟩ | ⟨-, ha, hx⟩ := step_cases h
  · have frame := applyInput_frame he
    rw [hin, List.head?_cons]
    exact ⟨fun _ hreset hstart => frame.enc (mt (congrArg some) hreset)
        fun cfg => mt (congrArg some) (hstart cfg),
      fun _ hreset hstart => frame.dec (mt (congrArg some) hreset) (mt (congrArg some) hstart)⟩
  · have hdec : t.dec = s.dec := (encoderStep_onlyEncoderMoves ha hx).dec
    exact ⟨fun hp _ _ => by rw [encoderStep_of_idle hp hx], fun _ _ _ => hdec⟩
  · have henc : t.enc = s.enc := (decoderStep_onlyDecoderMoves ha hx).enc
    exact ⟨fun _ _ _ => henc, fun hp _ _ => by rw [decoderStep_of_idle hp hx]⟩

end Sys2Proof.Machine
end

section
/-! The bytes of the elements as the numbers of the tables (30_encoding R93 to R99), and the operands as the
pseudocode of the pixel step computes them (42 R180, R182; 43 R200, R202, R203). -/

namespace Sys2Proof

open Machine

/-! ### Fields side by side -/

/-- A low field of `n` bits does not disturb what stands above it. -/
theorem emod_two_pow_add {m n : Nat} (x : Int) {y : Int} (hlo : 0 ≤ y) (hhi : y < 2 ^ n) :
    (x * 2 ^ n + y) % 2 ^ (m + n) = x % 2 ^ m * 2 ^ n + y := by
  have hx : 0 ≤ x % 2 ^ m := Int.emod_nonneg x (by positivity)
  have hxlt : x % 2 ^ m < 2 ^ m := Int.emod_lt_of_pos x (by positivity)
  have hlt : x % 2 ^ m * 2 ^ n + y < 2 ^ (m + n) := by
    rw [pow_add]
    nlinarith
  have hsplit : x * 2 ^ n + y = x % 2 ^ m * 2 ^ n + y + 2 ^ (m + n) * (x / 2 ^ m) := by
    nth_rw 1 [← Int.emod_add_mul_ediv x (2 ^ m)]
    ring
  rw [hsplit, Int.add_mul_emod_self_left, Int.emod_eq_of_lt (by positivity) hlt]

/-- Two fields side by side are the number that weighs the upper one by the lower one's width. -/
theorem ofInt_append_ofInt {m n : Nat} (x : Int) {y : Int} (hlo : 0 ≤ y) (hhi : y < 2 ^ n) :
    BitVec.ofInt m x ++ BitVec.ofInt n y = BitVec.ofInt (m + n) (x * 2 ^ n + y) := by
  have hx : 0 ≤ x % 2 ^ m := Int.emod_nonneg x (by positivity)
  apply BitVec.eq_of_toNat_eq
  rw [BitVec.toNat_append, ← Nat.shiftLeft_add_eq_or_of_lt (BitVec.isLt _), Nat.shiftLeft_eq]
  zify
  simp only [BitVec.toNat_ofInt]
  push_cast
  rw [emod_two_pow_add x hlo hhi, Int.emod_eq_of_lt hlo hhi, Int.toNat_of_nonneg hx,
    Int.toNat_of_nonneg hlo, Int.toNat_of_nonneg (by positivity)]

/-! ### The bytes of the operations -/

theorem encode_index_eq (i : Slot) : encode (.index i) = [BitVec.ofNat 8 i.toNat] := by
  rw [BitVec.ofNat_toNat, BitVec.setWidth_eq_append (by decide)]
  rfl

theorem encode_diff_eq {dr dg db : Int} (hwf : (Instr.diff dr dg db).wf = true) :
    encode (.diff dr dg db) = [BitVec.ofInt 8 (0x40 + 16 * (dr + 2) + 4 * (dg + 2) + (db + 2))] := by
  simp only [Instr.wf, Bool.and_eq_true, inRange_iff] at hwf
  obtain ⟨⟨hr, hg⟩, hb⟩ := hwf
  have htag : 0b01#2 = BitVec.ofInt 2 1 := rfl
  rw [encode, biased, biased, biased, biasDiff, htag, ofInt_append_ofInt _ (by omega) (by omega),
    ofInt_append_ofInt _ (by omega) (by omega), ofInt_append_ofInt _ (by omega) (by omega)]
  congr 2
  ring

theorem encode_luma_eq {dg drg dbg : Int} (hwf : (Instr.luma dg drg dbg).wf = true) :
    encode (.luma dg drg dbg) =
      [BitVec.ofInt 8 (0x80 + (dg + 32)), BitVec.ofInt 8 (16 * (drg + 8) + (dbg + 8))] := by
  simp only [Instr.wf, Bool.and_eq_true, inRange_iff] at hwf
  obtain ⟨⟨hg, hr⟩, hb⟩ := hwf
  have htag : 0b10#2 = BitVec.ofInt 2 2 := rfl
  rw [encode, biased, biased, biased, biasLumaG, biasLumaRB, htag,
    ofInt_append_ofInt _ (by omega) (by omega), ofInt_append_ofInt _ (by omega) (by omega)]
  congr 3
  ring

/-- The run registers 62 and 63 are covered too (log entry 18). -/
theorem encode_run_eq {n : Nat} (hn : n ≤ 64) : encode (.run n) = [runByte n] := by
  have hbyte := ofInt_append_ofInt (m := 2) (n := 6) 3 (y := (n - 1 : Nat)) (by omega) (by omega)
  rw [BitVec.ofInt_natCast] at hbyte
  exact congrArg (fun b : Byte => [b]) hbyte

/-- No operation is longer than RGB's four bytes (30_encoding R93). -/
theorem length_encode_le_four {i : Instr} (hi : i.position = .operation) : (encode i).length ≤ 4 := by
  cases i with
  | header | endMarker => cases hi
  | index | diff | luma | run | rgb | reservedFf => simp [encode]

end Sys2Proof

namespace Sys2Proof.Machine

/-! ### The literal the muxer selects -/

theorem fitsDiff_iff {d : Deltas} :
    fitsDiff d = true ↔ -2 ≤ d.dr ∧ d.dr ≤ 1 ∧ -2 ≤ d.dg ∧ d.dg ≤ 1 ∧ -2 ≤ d.db ∧ d.db ≤ 1 := by
  simp only [fitsDiff, Bool.and_eq_true, inRange_iff, and_assoc]

theorem fitsLuma_iff {d : Deltas} :
    fitsLuma d = true ↔ -32 ≤ d.dg ∧ d.dg ≤ 31 ∧ -8 ≤ d.dr - d.dg ∧ d.dr - d.dg ≤ 7 ∧
      -8 ≤ d.db - d.dg ∧ d.db - d.dg ≤ 7 := by
  simp only [fitsLuma, Deltas.drg, Deltas.dbg, Bool.and_eq_true, inRange_iff, and_assoc]

/-- The range tests are the operands' well-formedness, under which the formulas give the bytes. -/
theorem encode_literalOf (wrap : Bool) (prev c : Rgb) :
    encode (literalOf wrap prev c) =
      literalBytes (deltas wrap prev c).dr (deltas wrap prev c).dg (deltas wrap prev c).db c := by
  unfold literalOf literalBytes
  by_cases hdiff : fitsDiff (deltas wrap prev c) = true
  · rw [if_pos hdiff, if_pos (fitsDiff_iff.mp hdiff), encode_diff_eq hdiff]
  · rw [if_neg hdiff, if_neg (mt fitsDiff_iff.mpr hdiff)]
    by_cases hluma : fitsLuma (deltas wrap prev c) = true
    · rw [if_pos hluma, if_pos (fitsLuma_iff.mp hluma), encode_luma_eq hluma]
      rfl
    · rw [if_neg hluma, if_neg (mt fitsLuma_iff.mpr hluma)]
      rfl

/-- Both arms of the delta unit from the exact difference (43 R200). -/
theorem channelDelta_eq (wrap : Bool) (c p : Byte) :
    channelDelta wrap c p =
      if wrap then (BitVec.ofInt 8 ((c.toNat : Int) - p.toNat)).toInt else (c.toNat : Int) - p.toNat := by
  have hsub : c - p = BitVec.ofInt 8 ((c.toNat : Int) - p.toNat) := by
    apply BitVec.eq_of_toNat_eq
    rw [BitVec.toNat_sub, BitVec.toNat_ofInt]
    omega
  rw [channelDelta, hsub]

/-! ### The comparisons -/

theorem eqPrev_iff {prev c : Rgb} :
    eqPrev prev c = true ↔ c.r = prev.r ∧ c.g = prev.g ∧ c.b = prev.b := by
  rw [eqPrev, decide_eq_true_eq, Rgb.mk.injEq]

theorem flushes_iff {run : RunCount} {pixLeft : Count} :
    flushes run pixLeft = true ↔ run.toNat + 1 = 62 ∨ pixLeft = 1 := by
  rw [flushes, Bool.or_eq_true, isLast, decide_eq_true_eq, decide_eq_true_eq, runLength, Config.runMax]

theorem hashSlot_toNat (c : Rgb) :
    (hashSlot c).toNat = (3 * c.r.toNat + 5 * c.g.toNat + 7 * c.b.toNat + 2805) % 64 := by
  rw [hashSlot, BitVec.toNat_ofNat]
  exact Nat.mod_mod ..

theorem rgbWord_wordRgb (w : CacheWord) : rgbWord (wordRgb w) = w := by
  rw [rgbWord, wordRgb, BitVec.extractLsb'_append_extractLsb'_eq_extractLsb' (by rfl),
    BitVec.extractLsb'_append_extractLsb'_eq_extractLsb' (by rfl)]
  exact BitVec.extractLsb'_eq_self

/-- A hit compares words as it compares colours. -/
theorem cacheHit_iff {m : Memory} {c : Rgb} :
    cacheHit m c = true ↔ readCell m (hashSlot c).toNat = rgbWord c := by
  rw [cacheHit, decide_eq_true_eq, cacheRead]
  constructor
  · intro h
    rw [← rgbWord_wordRgb (readCell _ _), h]
  · intro h
    rw [h, wordRgb_rgbWord]

end Sys2Proof.Machine
end

section
/-! One pixel step of the encoder (40 R133 to R136, R141): what it appends and leaves in its registers, that
this is the procedure of the pseudocode, and the shapes of the bytes. -/

namespace Sys2Proof.Machine

/-! ### The updates of a pixel step, collected -/

/-- The state after the bytes `bs` are sent and the run counter and the cache are written, the pixel not yet
retired. -/
def sent (bs : List Byte) (run : RunCount) (m : Memory) (s : State) : State :=
  { s with byteSink := s.byteSink ++ portBytes bs, enc := { s.enc with run := run, cache := m } }

theorem terminateRun_eq_sent (s : State) :
    terminateRun s = sent (pendingRun s.enc.run) 0 s.enc.cache s := by
  unfold terminateRun pendingRun
  split
  · rename_i hrun
    simp [sent, portBytes, ← hrun]
  · rw [← encode_run_eq (by omega)]
    rfl

theorem sendBytes_sent (bs cs : List Byte) (run : RunCount) (m : Memory) (s : State) :
    sendBytes cs (sent bs run m s) = sent (bs ++ cs) run m s := by
  simp [sent, sendBytes, portBytes]

theorem encStore_sent (c : Rgb) (bs : List Byte) (run : RunCount) (m : Memory) (s : State) :
    encStore c (sent bs run m s) = sent bs run (cacheStore m c) s := rfl

theorem setEncRun_sendBytes (run : RunCount) (bs : List Byte) (s : State) :
    setEncRun run (sendBytes bs s) = sent bs run s.enc.cache s := rfl

theorem setEncRun_eq_sent (run : RunCount) (s : State) : setEncRun run s = sent [] run s.enc.cache s := by
  simp [sent, setEncRun, portBytes]

section

variable {s : State} {w : PixelWord} {ps : List PixelWord}

theorem offeredPixel_of_cons (hsrc : s.pixSource = w :: ps) :
    offeredPixel s = some (readPixel s.enc.cfg.channels w) := by
  rw [offeredPixel, hsrc, List.head?_cons, Option.map_some]

/-- Retiring the offered pixel after the updates gives the whole next state (40 R133, R134, R136). -/
theorem retirePixel_sent (hph : s.enc.phase = .pixels) (hsrc : s.pixSource = w :: ps) (bs : List Byte)
    (run : RunCount) (m : Memory) :
    retirePixel (readPixel s.enc.cfg.channels w) (sent bs run m s) = pixelTaken w ps bs run m s := by
  simp [retirePixel, sent, pixelTaken, readPixel, isLast, hph, hsrc]

/-! ### The elements issued for a pixel -/

variable (ha : s.active = .encoder) (hph : s.enc.phase = .pixels) (hleft : s.enc.pixLeft ≠ 0)
  (hsrc : s.pixSource = w :: ps)

include ha hph hleft hsrc

theorem exec_run_of_issued {n : Nat} (hi : issued s = some (.run n)) :
    exec (.run n) s = .next (pixelTaken w ps (encode (.run n)) 0 s.enc.cache s) := by
  rw [exec_run_of_encoder ha, encoderOperation_of_issued (offeredPixel_of_cons hsrc) hi hleft,
    setEncRun_sendBytes, retirePixel_sent hph hsrc]

theorem exec_index_of_issued {slot : Slot} (hi : issued s = some (.index slot)) :
    exec (.index slot) s =
      .next (pixelTaken w ps (pendingRun s.enc.run ++ encode (.index slot)) 0 s.enc.cache s) := by
  rw [exec_index_of_encoder ha, encoderIndex,
    encoderOperation_of_issued (offeredPixel_of_cons hsrc) hi hleft, terminateRun_eq_sent, sendBytes_sent,
    retirePixel_sent hph hsrc]

theorem exec_literal_of_issued {i : Instr} (hst : storesColour i = true) (hi : issued s = some i) :
    exec i s =
      .next (pixelTaken w ps (pendingRun s.enc.run ++ encode i) 0
        (cacheStore s.enc.cache (wordPixelRgb w)) s) := by
  rw [exec_of_storesColour ha hst, encoderLiteral,
    encoderOperation_of_issued (offeredPixel_of_cons hsrc) hi hleft, terminateRun_eq_sent, encStore_sent,
    sendBytes_sent, retirePixel_sent hph hsrc]
  rfl

omit ha in
theorem extendRun_of_offered :
    extendRun s =
      .next (pixelTaken w ps [] (BitVec.ofNat 6 (runLength s.enc.run)) s.enc.cache s) := by
  simp only [extendRun, hph, if_true, offeredPixel_of_cons hsrc, if_neg hleft]
  rw [setEncRun_eq_sent, retirePixel_sent hph hsrc]

end

/-! ### The pixel step -/

/-- What a pixel of colour `c` leaves of the run counter and the cache, and the bytes it appends, in the order of
the muxer (43 R204). -/
def pixelOutput (wrap : Bool) (e : Encoder) (c : Rgb) : RunCount × Memory × List Byte :=
  if eqPrev e.prev.toRgb c then
    if flushes e.run e.pixLeft then (0, e.cache, encode (.run (runLength e.run)))
    else (BitVec.ofNat 6 (runLength e.run), e.cache, [])
  else if cacheHit e.cache c then (0, e.cache, pendingRun e.run ++ encode (.index (hashSlot c)))
  else (0, cacheStore e.cache c, pendingRun e.run ++ encode (literalOf wrap e.prev.toRgb c))

/-- The state after the step of a pixel, from its output. -/
def afterPixel (w : PixelWord) (ps : List PixelWord) (s : State) : State :=
  pixelTaken w ps (pixelOutput s.deltaWrap s.enc (wordPixelRgb w)).2.2
    (pixelOutput s.deltaWrap s.enc (wordPixelRgb w)).1
    (pixelOutput s.deltaWrap s.enc (wordPixelRgb w)).2.1 s

/-- With a pixel on offer and the sink ready the step is the muxer's operation, or the run's extension where it
selects none. -/
theorem step_of_offeredPixel {s : State} {w : PixelWord} {ps : List PixelWord} (hin : s.inputs = [])
    (ha : s.active = .encoder) (hready : s.byteSinkReady = true) (hph : s.enc.phase = .pixels)
    (hleft : s.enc.pixLeft ≠ 0) (hsrc : s.pixSource = w :: ps) :
    step s = .next (afterPixel w ps s) := by
  have hissued : issued s = muxer s.deltaWrap s.enc (wordPixelRgb w) :=
    issued_pixels hph (offeredPixel_of_cons hsrc)
  cases hm : muxer s.deltaWrap s.enc (wordPixelRgb w) with
  | none =>
    obtain ⟨heq, hflush⟩ := muxer_none hm
    have hstep : step s = extendRun s := by
      simp only [step_of_active_encoder hin ha, encoderStep, hissued, hm]
    rw [hstep, extendRun_of_offered hph hleft hsrc]
    simp [afterPixel, pixelOutput, heq, hflush]
  | some i =>
    have hi : issued s = some i := hissued.trans hm
    rw [stepExecutesTheIssuedElement s i hin ha hready hi]
    obtain ⟨heq, hflush, rfl⟩ | ⟨heq, hhit, rfl⟩ | ⟨heq, hhit, rfl⟩ := muxer_cases hm
    · rw [exec_run_of_issued ha hph hleft hsrc hi]
      simp [afterPixel, pixelOutput, heq, hflush]
    · rw [exec_index_of_issued ha hph hleft hsrc hi]
      simp [afterPixel, pixelOutput, heq, hhit]
    · rw [exec_literal_of_issued ha hph hleft hsrc (storesColour_literalOf ..) hi]
      simp [afterPixel, pixelOutput, heq, hhit]

theorem pendingRun_eq (run : RunCount) :
    pendingRun run = if 0 < run.toNat then [runByte run.toNat] else [] := by
  have hzero : run = 0 ↔ ¬0 < run.toNat := by simp [BitVec.toNat_eq]
  rw [pendingRun, if_congr hzero rfl rfl, ite_not]

/-- The pseudocode's run counter, cache and bytes are the model's: each of its tests is the model's test and each
of its formulas the byte of the element. -/
theorem pixelProcedure_output (wrap : Bool) (e : Encoder) (w : PixelWord) :
    ((pixelProcedure wrap e w).1.run, (pixelProcedure wrap e w).1.cache, (pixelProcedure wrap e w).2) =
      pixelOutput wrap e (wordPixelRgb w) := by
  have hrun : encode (.run (runLength e.run)) = [runByte (e.run.toNat + 1)] :=
    encode_run_eq (Nat.succ_le_of_lt e.run.isLt)
  rw [pixelOutput, encode_index_eq, encode_literalOf, hrun, pendingRun_eq, cacheStore]
  simp only [eqPrev_iff, flushes_iff, cacheHit_iff, hashSlot_toNat, deltas, channelDelta_eq]
  rfl

theorem length_pixelOutput_le_five (wrap : Bool) (e : Encoder) (c : Rgb) :
    (pixelOutput wrap e c).2.2.length ≤ 5 := by
  have hpending : (pendingRun e.run).length ≤ 1 := by
    unfold pendingRun
    split <;> simp
  have happend : ∀ i : Instr, i.position = .operation → (pendingRun e.run ++ encode i).length ≤ 5 := by
    intro i hi
    rw [List.length_append]
    exact Nat.add_le_add hpending (length_encode_le_four hi)
  unfold pixelOutput
  split
  · split
    · exact (length_encode_le_four (i := .run _) rfl).step
    · exact Nat.zero_le _
  · split
    · exact happend (.index _) rfl
    · exact happend _ (position_literalOf ..)

/-- Settles O25: the step performs what the muxer selects, whose tests and bytes are the pseudocode's; a RUN byte
and at most four of a literal form make the five (40 R133). -/
theorem pixelStepIsTheProcedure : Obligations.PixelStepIsTheProcedure := by
  intro s w ps hin ha hready hph hleft hsrc
  have hout := pixelProcedure_output s.deltaWrap s.enc w
  constructor
  · rw [step_of_offeredPixel hin ha hready hph hleft hsrc, afterPixel, ← hout]
    rfl
  · have hlen := length_pixelOutput_le_five s.deltaWrap s.enc (wordPixelRgb w)
    rwa [← hout] at hlen

/-! ### The shapes -/

theorem pendingRun_shape {run : RunCount} (hrun : run.toNat ≤ 61) :
    pendingRun run = [] ∨ ∃ k, 1 ≤ k ∧ k ≤ 61 ∧ pendingRun run = encode (.run k) := by
  unfold pendingRun
  split
  · exact .inl rfl
  · rename_i hne
    refine .inr ⟨run.toNat, ?_, hrun, (encode_run_eq (by omega)).symm⟩
    exact Nat.one_le_iff_ne_zero.mpr (BitVec.toNat_ne_iff_ne.mpr hne)

/-- An operation's bytes are its own, after the pending run's where it breaks a run. -/
theorem EncoderPerforms.byteSink_of_operation {s t : State} {i : Instr} (h : EncoderPerforms s i t)
    (hi : i.position = .operation) :
    ((∃ n, i = .run n) ∧ t.byteSink = s.byteSink ++ portBytes (encode i)) ∨
      ((∀ n, i ≠ .run n) ∧ t.byteSink = s.byteSink ++ portBytes (pendingRun s.enc.run ++ encode i)) := by
  cases h with
  | header | endMarker => cases hi
  | run => exact .inl ⟨⟨_, rfl⟩, rfl⟩
  | index =>
    rw [terminateRun_eq_sent, sendBytes_sent]
    exact .inr ⟨nofun, rfl⟩
  | literal hst =>
    rw [terminateRun_eq_sent, encStore_sent, sendBytes_sent]
    refine .inr ⟨?_, rfl⟩
    rintro n rfl
    cases hst

/-- Settles O26: a wait and the extension of a run append nothing, RUN its one byte, and every other operation
its bytes after those of a pending run. -/
theorem shapesOfAPixelStep : Obligations.ShapesOfAPixelStep := by
  intro s t hin ha hph hrun h
  obtain rfl | ⟨i, hi, -, hx⟩ | ⟨-, hx⟩ := encoderStep_next (step_of_active_encoder hin ha ▸ h)
  · exact ⟨[], (List.append_nil _).symm, .inl rfl⟩
  · obtain ⟨hwf, hne⟩ := wf_of_issued hrun hi
    have hpos : i.position = .operation := by simpa [hph] using issued_phase hi
    obtain ⟨⟨k, rfl⟩, hsink⟩ | ⟨hnotRun, hsink⟩ := (exec_encoderPerforms ha hx).byteSink_of_operation hpos
    · obtain ⟨hmin, hmax⟩ := wf_run_iff.mp hwf
      exact ⟨_, hsink, .inr (.inl ⟨k, hmin, hmax, rfl⟩)⟩
    · refine ⟨_, hsink, .inr (.inr ⟨i, hwf, hpos, hne, hnotRun, ?_⟩)⟩
      obtain hnone | ⟨k, hmin, hmax, hk⟩ := pendingRun_shape hrun
      · exact .inl (by rw [hnone, List.nil_append])
      · exact .inr ⟨k, hmin, hmax, by rw [hk]⟩
  · obtain rfl | ⟨p, -, -, -, rfl⟩ := extendRun_next hx
    all_goals exact ⟨[], (List.append_nil _).symm, .inl rfl⟩

end Sys2Proof.Machine
end

section
/-! The run extension of the encoder (41 R161, R162; 40 R136): a pixel equal to the previous one selects the flush
or nothing, and each has its own step. -/

namespace Sys2Proof.Machine

/-- On an offered pixel equal to the previous one the encoder issues the flush of the run, or nothing (41 R162). -/
theorem issued_of_eqPrev {s : State} {w : PixelWord} {ps : List PixelWord} (hph : s.enc.phase = .pixels)
    (hsrc : s.pixSource = w :: ps) (heq : wordPixelRgb w = s.enc.prev.toRgb) :
    issued s =
      if flushes s.enc.run s.enc.pixLeft then some (.run (runLength s.enc.run)) else none := by
  have hprev : eqPrev s.enc.prev.toRgb (wordPixelRgb w) = true := decide_eq_true heq
  exact (issued_pixels hph (offeredPixel_of_cons hsrc)).trans (if_pos hprev)

/-- Settles O18: a flush is the RUN issued, its byte holding the length less one; otherwise nothing is issued and
the step is the run's extension. -/
theorem encoderExtendsRun : Obligations.EncoderExtendsRun := by
  intro s w ps ha hph hleft hsrc heq
  have hissued := issued_of_eqPrev hph hsrc heq
  constructor
  · intro hflush
    have hrun : issued s = some (.run (s.enc.run.toNat + 1)) :=
      hissued.trans (if_pos (flushes_iff.mpr hflush))
    have hbyte : encode (.run (s.enc.run.toNat + 1)) = [BitVec.ofNat 8 (0xC0 + s.enc.run.toNat)] :=
      encode_run_eq (Nat.succ_le_of_lt s.enc.run.isLt)
    rw [exec_run_of_issued ha hph hleft hsrc hrun, hbyte]
  · intro hflush hin
    have hnone : issued s = none := hissued.trans (if_neg (mt flushes_iff.mp hflush))
    have hstep : step s = extendRun s := by
      simp only [step_of_active_encoder hin ha, encoderStep, hnone]
    exact ⟨hnone, hstep.trans (extendRun_of_offered hph hleft hsrc)⟩

end Sys2Proof.Machine
end

section
/-! The hash of a colour (42 R180, R181): the formula over the integers, its reduced form on the low six bits of
each channel, and the rule's examples. -/

namespace Sys2Proof.Machine

/-- The reduced form of 42 R181: the coefficients act modulo 64, and 11 * 255 leaves 53. -/
theorem hashSlot_toNat_lowBits (c : Rgb) :
    (hashSlot c).toNat =
      (3 * (c.r.toNat % 64) + 5 * (c.g.toNat % 64) + 7 * (c.b.toNat % 64) + 53) % 64 := by
  rw [hashSlot_toNat]
  omega

/-- Settles O13: the reduced form reads each channel modulo 64 only. -/
theorem hashIgnoresTopBits : Obligations.HashIgnoresTopBits := by
  intro c d hr hg hb
  refine ⟨BitVec.eq_of_toNat_eq ?_, hashSlot_toNat_lowBits c⟩
  rw [hashSlot_toNat_lowBits, hashSlot_toNat_lowBits, hr, hg, hb]

/-- Settles O12: the slot's number is the formula, and the six examples are computed. -/
theorem hashOfAColour : Obligations.HashOfAColour :=
  ⟨hashSlot_toNat, by decide⟩

end Sys2Proof.Machine
end

section
/-! Hits of the encoder's cache: a slot that was never stored (42 R185), and the INDEX a hit sends (42 R183; 41
R163). -/

namespace Sys2Proof.Machine

/-- A cell with no entry holds the 0 of START's clear (20_memory R63). -/
theorem readCell_of_notMem {i : Nat} : ∀ {m : Memory}, (∀ w, (i, w) ∉ m) → readCell m i = 0
  | [], _ => readCell_nil i
  | (slot, v) :: m, hm => by
    have hslot : slot ≠ i := fun h => hm v (h ▸ List.mem_cons_self)
    rw [readCell, if_neg hslot]
    exact readCell_of_notMem fun w hw => hm w (List.mem_cons_of_mem _ hw)

theorem cacheRead_of_notMem {m : Memory} {i : Slot} (hm : ∀ w, (i.toNat, w) ∉ m) :
    cacheRead m i = { r := 0, g := 0, b := 0 } := by
  rw [cacheRead, readCell_of_notMem hm]
  rfl

/-- Settles O16: the slot reads as (0, 0, 0), so a hit is equality with it. -/
theorem onlyBlackHitsAnUnwrittenSlot : Obligations.OnlyBlackHitsAnUnwrittenSlot := by
  intro m c hm
  rw [cacheHit, decide_eq_true_eq, cacheRead_of_notMem hm]
  exact eq_comm

/-- On an offered pixel that differs from the previous one and is held in its slot the encoder issues INDEX,
before any test of the deltas (43 R204). -/
theorem issued_of_cacheHit {s : State} {w : PixelWord} {ps : List PixelWord} (hph : s.enc.phase = .pixels)
    (hsrc : s.pixSource = w :: ps) (hne : wordPixelRgb w ≠ s.enc.prev.toRgb)
    (hslot : cacheRead s.enc.cache (hashSlot (wordPixelRgb w)) = wordPixelRgb w) :
    issued s = some (.index (hashSlot (wordPixelRgb w))) := by
  have hprev : ¬eqPrev s.enc.prev.toRgb (wordPixelRgb w) = true := by rwa [eqPrev, decide_eq_true_eq]
  have hhit : cacheHit s.enc.cache (wordPixelRgb w) = true := decide_eq_true hslot
  calc
    issued s = muxer s.deltaWrap s.enc (wordPixelRgb w) := issued_pixels hph (offeredPixel_of_cons hsrc)
    _ = some (.index (hashSlot (wordPixelRgb w))) := by rw [muxer, if_neg hprev, if_pos hhit]

/-- Settles O19: the hit makes INDEX the element issued, and its byte is the slot number. -/
theorem encoderSendsIndex : Obligations.EncoderSendsIndex := by
  intro s w ps ha hph hleft hsrc hne hslot
  rw [exec_index_of_issued ha hph hleft hsrc (issued_of_cacheHit hph hsrc hne hslot), encode_index_eq]

end Sys2Proof.Machine
end

section
/-! The delta unit (43 R200; 46 R278): what its two arms give, and the decoder's sum that undoes either. -/

namespace Sys2Proof.Machine

/-- Arm 1 is a signed 8-bit value. -/
theorem channelDelta_wrap_bounds (c p : Byte) :
    -128 ≤ channelDelta true c p ∧ channelDelta true c p ≤ 127 :=
  ⟨BitVec.le_toInt _, Int.le_of_lt_add_one BitVec.toInt_lt⟩

/-- Either arm is the exact difference modulo 256. -/
theorem channelDelta_emod (wrap : Bool) (c p : Byte) :
    (channelDelta wrap c p - ((c.toNat : Int) - p.toNat)) % 256 = 0 := by
  rw [channelDelta_eq]
  cases wrap with
  | false => simp
  | true =>
    rw [if_pos rfl, BitVec.toInt_ofInt]
    exact Int.emod_eq_zero_of_dvd Int.dvd_bmod_sub_self

/-- A delta that is the exact difference modulo 256 leads from the previous channel to the new one. -/
theorem addDelta_of_emod {c p : Byte} {d : Int} (hd : (d - ((c.toNat : Int) - p.toNat)) % 256 = 0) :
    addDelta p d = c := by
  have hsum : ((p.toNat : Int) + d) % 256 = c.toNat := by omega
  apply BitVec.eq_of_toNat_eq
  rw [addDelta, BitVec.toNat_ofInt]
  exact congrArg Int.toNat hsum

theorem addDelta_channelDelta (wrap : Bool) (c p : Byte) : addDelta p (channelDelta wrap c p) = c :=
  addDelta_of_emod (channelDelta_emod wrap c p)

theorem addDelta_zero (p : Byte) : addDelta p 0 = p :=
  addDelta_of_emod (by simp)

theorem channelDelta_self (wrap : Bool) (c : Byte) : channelDelta wrap c c = 0 := by
  cases wrap <;> simp [channelDelta]

/-- The sum determines the channel, so only an unchanged channel has delta 0. -/
theorem channelDelta_eq_zero_iff {wrap : Bool} {c p : Byte} : channelDelta wrap c p = 0 ↔ c = p := by
  constructor
  · intro hzero
    calc
      c = addDelta p (channelDelta wrap c p) := (addDelta_channelDelta wrap c p).symm
      _ = p := by rw [hzero, addDelta_zero]
  · rintro rfl
    exact channelDelta_self wrap c

/-- Settles O14: both arms are the exact difference modulo 256, the second in a signed byte's range, so they
agree where the exact difference lies in that range, and the decoder's sum undoes both. -/
theorem deltaArms : Obligations.DeltaArms := by
  intro c p
  obtain ⟨hlo, hhi⟩ := channelDelta_wrap_bounds c p
  have hmod := channelDelta_emod true c p
  have hexact : channelDelta false c p = (c.toNat : Int) - p.toNat := rfl
  exact ⟨hexact, ⟨hlo, hhi, hmod⟩, fun hsmall => by omega, fun _ => channelDelta_eq_zero_iff,
    fun wrap => addDelta_channelDelta wrap c p⟩

end Sys2Proof.Machine
end

section
/-! The literal forms of the encoder (43 R204 to R207; 42 R184; 41 R163): on a miss the deltas select one of
three, and its step sends the pending run and the form's bytes and stores the colour. -/

namespace Sys2Proof.Machine

/-! ### The selection by the deltas -/

section

variable {wrap : Bool} {prev c : Rgb} {d : Deltas} (hd : deltas wrap prev c = d)

include hd

theorem literalOf_of_fitsDiff (hdiff : fitsDiff d = true) :
    literalOf wrap prev c = .diff d.dr d.dg d.db := by
  rw [literalOf, hd, if_pos hdiff]

theorem literalOf_of_fitsLuma (hdiff : ¬fitsDiff d = true) (hluma : fitsLuma d = true) :
    literalOf wrap prev c = .luma d.dg d.drg d.dbg := by
  rw [literalOf, hd, if_neg hdiff, if_pos hluma]

theorem literalOf_of_fits_neither (hdiff : ¬fitsDiff d = true) (hluma : ¬fitsLuma d = true) :
    literalOf wrap prev c = .rgb c.r c.g c.b := by
  rw [literalOf, hd, if_neg hdiff, if_neg hluma]

end

/-! ### The step of a miss -/

/-- The pixel `w` on offer, `ps` behind it, differs from the previous one and is not in its slot (42 R182). -/
structure Misses (s : State) (w : PixelWord) (ps : List PixelWord) : Prop where
  active : s.active = .encoder
  phase : s.enc.phase = .pixels
  pixelsLeft : s.enc.pixLeft ≠ 0
  offered : s.pixSource = w :: ps
  breaksRun : wordPixelRgb w ≠ s.enc.prev.toRgb
  noHit : cacheRead s.enc.cache (hashSlot (wordPixelRgb w)) ≠ wordPixelRgb w

section

variable {s : State} {w : PixelWord} {ps : List PixelWord} (h : Misses s w ps)

include h

/-- A miss is given the literal form that its deltas select (43 R204). -/
theorem Misses.issued_eq :
    issued s = some (literalOf s.deltaWrap s.enc.prev.toRgb (wordPixelRgb w)) := by
  have hprev : ¬eqPrev s.enc.prev.toRgb (wordPixelRgb w) = true := by
    rw [eqPrev, decide_eq_true_eq]
    exact h.breaksRun
  have hhit : ¬cacheHit s.enc.cache (wordPixelRgb w) = true := by
    rw [cacheHit, decide_eq_true_eq]
    exact h.noHit
  calc
    issued s = muxer s.deltaWrap s.enc (wordPixelRgb w) :=
      issued_pixels h.phase (offeredPixel_of_cons h.offered)
    _ = some (literalOf s.deltaWrap s.enc.prev.toRgb (wordPixelRgb w)) := by
      rw [muxer, if_neg hprev, if_neg hhit]

/-- The form selected sends its bytes after the pending run's and stores the colour, whichever it is. -/
theorem Misses.exec_eq {i : Instr} {bs : List Byte}
    (hi : literalOf s.deltaWrap s.enc.prev.toRgb (wordPixelRgb w) = i) (hbs : encode i = bs) :
    exec i s = .next (pixelTaken w ps (pendingRun s.enc.run ++ bs) 0
      (cacheStore s.enc.cache (wordPixelRgb w)) s) := by
  subst hi hbs
  exact exec_literal_of_issued h.active h.phase h.pixelsLeft h.offered (storesColour_literalOf ..)
    h.issued_eq

end

/-! ### The obligations -/

/-- Settles O20: the range test selects DIFF, and makes its byte the formula of 30 R95. -/
theorem encoderSendsDiff : Obligations.EncoderSendsDiff := by
  intro s w ps dr dg db ha hph hleft hsrc hne hmiss hd hr hr' hg hg' hb hb'
  have hdiff : fitsDiff ⟨dr, dg, db⟩ = true := fitsDiff_iff.mpr ⟨hr, hr', hg, hg', hb, hb'⟩
  exact Misses.exec_eq ⟨ha, hph, hleft, hsrc, hne, hmiss⟩ (literalOf_of_fitsDiff hd hdiff)
    (encode_diff_eq hdiff)

/-- Settles O21: the second range test selects LUMA, and makes its bytes the formulas of 30 R96. -/
theorem encoderSendsLuma : Obligations.EncoderSendsLuma := by
  intro s w ps dr dg db ha hph hleft hsrc hne hmiss hd hnot hg hg' hr hr' hb hb'
  have hluma : fitsLuma ⟨dr, dg, db⟩ = true := fitsLuma_iff.mpr ⟨hg, hg', hr, hr', hb, hb'⟩
  exact Misses.exec_eq ⟨ha, hph, hleft, hsrc, hne, hmiss⟩
    (literalOf_of_fitsLuma hd (mt fitsDiff_iff.mp hnot) hluma) (encode_luma_eq hluma)

/-- Settles O22: neither range test holds, so RGB is selected, whose bytes are the tag and the channels. -/
theorem encoderSendsRgb : Obligations.EncoderSendsRgb := by
  intro s w ps dr dg db ha hph hleft hsrc hne hmiss hd hdiff hluma
  exact Misses.exec_eq ⟨ha, hph, hleft, hsrc, hne, hmiss⟩
    (literalOf_of_fits_neither hd (mt fitsDiff_iff.mp hdiff) (mt fitsLuma_iff.mp hluma)) rfl

end Sys2Proof.Machine
end

section
/-! Alpha never reaches the encoder's bytes (43 R208): each update, each element and each step of the encoder
takes states that differ in alpha only to states that differ in alpha only. -/

namespace Sys2Proof.Machine

/-! ### States that differ in alpha only -/

/-- The state with other pixels on offer and another alpha of the encoder's previous pixel. -/
def withAlpha (ps : List PixelWord) (a : Byte) (s : State) : State :=
  { s with pixSource := ps, enc := { s.enc with prev := { s.enc.prev with a := a } } }

theorem alphaOnly_withAlpha {ps : List PixelWord} {s : State}
    (hps : ps.map wordPixelRgb = s.pixSource.map wordPixelRgb) (a : Byte) :
    alphaOnly s (withAlpha ps a s) :=
  ⟨hps, rfl⟩

/-- The relation is `withAlpha`, for pixels of the same colours. -/
theorem alphaOnly_iff {s s' : State} :
    alphaOnly s s' ↔
      ∃ ps a, ps.map wordPixelRgb = s.pixSource.map wordPixelRgb ∧ s' = withAlpha ps a s := by
  constructor
  · rintro ⟨hmap, heq⟩
    exact ⟨_, _, hmap, heq⟩
  · rintro ⟨ps, a, hmap, rfl⟩
    exact alphaOnly_withAlpha hmap a

/-- The colour on offer does not depend on the channel count (40 R134). -/
theorem offeredPixel_map_toRgb (s : State) :
    (offeredPixel s).map Pixel.toRgb = (s.pixSource.map wordPixelRgb).head? := by
  rw [offeredPixel, Option.map_map, List.head?_map]
  rfl

/-- What the encoder issues for a pixel depends on its colour only. -/
theorem issued_of_phase_pixels {s : State} (hph : s.enc.phase = .pixels) :
    issued s = ((offeredPixel s).map Pixel.toRgb).bind (muxer s.deltaWrap s.enc) := by
  simp only [issued, hph]
  cases offeredPixel s <;> rfl

/-- An element that the encoder performs is what exec of it does. -/
theorem EncoderPerforms.exec_eq {s t : State} {i : Instr} (ha : s.active = .encoder)
    (h : EncoderPerforms s i t) : exec i s = .next t := by
  cases h with
  | header hi => rw [exec_header_of_encoder ha, encoderFraming_of_issued hi]
  | index hs =>
    rw [exec_index_of_encoder ha]
    exact encoderOperation_of_issued hs.offered hs.issued hs.pixelsLeft
  | literal hst hs =>
    rw [exec_of_storesColour ha hst]
    exact encoderOperation_of_issued hs.offered hs.issued hs.pixelsLeft
  | run hs =>
    rw [exec_run_of_encoder ha]
    exact encoderOperation_of_issued hs.offered hs.issued hs.pixelsLeft
  | endMarker hi => rw [exec_endMarker_of_encoder ha, encoderFraming_of_issued hi]

section

variable {s s' : State} (h : alphaOnly s s')

include h

theorem alphaOnly.offeredPixel_map_toRgb :
    (offeredPixel s').map Pixel.toRgb = (offeredPixel s).map Pixel.toRgb := by
  rw [Machine.offeredPixel_map_toRgb, Machine.offeredPixel_map_toRgb, h.1]

theorem alphaOnly.offeredPixel_eq_none (hp : offeredPixel s = none) : offeredPixel s' = none := by
  simpa [hp] using h.offeredPixel_map_toRgb

theorem alphaOnly.offeredPixel_eq_some {p : Pixel} (hp : offeredPixel s = some p) :
    ∃ p', offeredPixel s' = some p' ∧ p'.toRgb = p.toRgb := by
  simpa [hp] using h.offeredPixel_map_toRgb

/-- No comparison of the muxer sees alpha (41 R160; 42 R180, R182; 43 R200). -/
theorem alphaOnly.issued_eq : issued s' = issued s := by
  have hcolour := h.offeredPixel_map_toRgb
  obtain ⟨ps, a, -, rfl⟩ := alphaOnly_iff.mp h
  cases hph : s.enc.phase with
  | idle | header | trailer => simp only [issued, withAlpha, hph]
  | pixels =>
    rw [issued_of_phase_pixels (s := withAlpha ps a s) hph, issued_of_phase_pixels hph, hcolour]
    rfl

/-! ### The updates -/

/-- An update that touches neither the pixels on offer nor the previous pixel keeps the relation. -/
theorem alphaOnly.map {f : State → State}
    (hsrc : ∀ t, (f t).pixSource = t.pixSource := by intros; rfl)
    (hcomm : ∀ ps a t, f (withAlpha ps a t) = withAlpha ps a (f t) := by intros; rfl) :
    alphaOnly (f s) (f s') := by
  obtain ⟨ps, a, hmap, rfl⟩ := alphaOnly_iff.mp h
  rw [hcomm]
  exact alphaOnly_withAlpha (by rw [hmap, hsrc]) a

theorem alphaOnly.terminateRun : alphaOnly (terminateRun s) (terminateRun s') := by
  refine h.map (fun t => ?_) (fun ps a t => ?_)
  · rw [terminateRun_eq_sent]
    rfl
  · rw [terminateRun_eq_sent, terminateRun_eq_sent]
    rfl

/-- Retiring pixels of one colour leaves previous pixels of one colour. -/
theorem alphaOnly.retirePixel {p p' : Pixel} (hp : p'.toRgb = p.toRgb) :
    alphaOnly (retirePixel p s) (retirePixel p' s') := by
  obtain ⟨ps, a, hmap, rfl⟩ := alphaOnly_iff.mp h
  have hretire : Machine.retirePixel p' (withAlpha ps a s) =
      withAlpha ps.tail p'.a (Machine.retirePixel p s) := by
    simp only [withAlpha, Machine.retirePixel, ← hp]
    rfl
  rw [hretire]
  exact alphaOnly_withAlpha (by simp [List.map_tail, hmap]) _

/-! ### The elements and the step -/

theorem alphaOnly.selected {i : Instr} {p : Pixel} (hs : Selected s i p) :
    ∃ p', Selected s' i p' ∧ p'.toRgb = p.toRgb := by
  obtain ⟨p', hp', hrgb⟩ := h.offeredPixel_eq_some hs.offered
  have hleft : s'.enc.pixLeft = s.enc.pixLeft := by rw [h.2]
  exact ⟨p', ⟨hp', h.issued_eq.trans hs.issued, hleft ▸ hs.pixelsLeft⟩, hrgb⟩

/-- An element performed on the one state is performed on the other. -/
theorem alphaOnly.performs {i : Instr} {t : State} (hx : EncoderPerforms s i t) :
    ∃ t', EncoderPerforms s' i t' ∧ alphaOnly t t' := by
  cases hx with
  | header hi =>
    exact ⟨_, .header (h.issued_eq.trans hi),
      h.map (f := fun t => setEncPhase .pixels (sendBytes _ t))⟩
  | index hs =>
    obtain ⟨p', hs', hrgb⟩ := h.selected hs
    exact ⟨_, .index hs', (h.terminateRun.map (f := sendBytes _)).retirePixel hrgb⟩
  | literal hst hs =>
    obtain ⟨p', hs', hrgb⟩ := h.selected hs
    refine ⟨_, .literal hst hs', alphaOnly.retirePixel ?_ hrgb⟩
    rw [hrgb]
    exact h.terminateRun.map (f := fun t => sendBytes _ (encStore _ t))
  | run hs =>
    obtain ⟨p', hs', hrgb⟩ := h.selected hs
    exact ⟨_, .run hs', (h.map (f := fun t => setEncRun 0 (sendBytes _ t))).retirePixel hrgb⟩
  | endMarker hi =>
    exact ⟨_, .endMarker (h.issued_eq.trans hi),
      h.map (f := fun t => encoderDone (sendEndMarker t))⟩

/-- Both states wait, or both extend the run by their offered pixel. -/
theorem alphaOnly.extendRun {t : State} (hx : extendRun s = .next t) :
    ∃ t', extendRun s' = .next t' ∧ alphaOnly t t' := by
  have hphase : s'.enc.phase = s.enc.phase := by rw [h.2]
  have hleft : s'.enc.pixLeft = s.enc.pixLeft := by rw [h.2]
  have hrun : s'.enc.run = s.enc.run := by rw [h.2]
  unfold Machine.extendRun at hx ⊢
  rw [hphase, hleft, hrun]
  split at hx
  · rw [if_pos ‹_›]
    split at hx
    · cases hx
      rw [h.offeredPixel_eq_none ‹_›]
      exact ⟨s', rfl, h⟩
    · obtain ⟨p', hp', hrgb⟩ := h.offeredPixel_eq_some ‹_›
      rw [hp']
      split at hx
      · cases hx
      · cases hx
        exact ⟨_, if_neg ‹_›, (h.map (f := setEncRun _)).retirePixel hrgb⟩
  · cases hx
    exact ⟨s', if_neg ‹_›, h⟩

theorem alphaOnly.exec {i : Instr} {t : State} (ha : s.active = .encoder) (hx : exec i s = .next t) :
    ∃ t', exec i s' = .next t' ∧ alphaOnly t t' := by
  have ha' : s'.active = .encoder := by rw [h.2, ha]
  obtain ⟨t', hx', ht⟩ := h.performs (exec_encoderPerforms ha hx)
  exact ⟨t', hx'.exec_eq ha', ht⟩

/-- Both states issue the same element or none, and both wait for the sink or neither does. -/
theorem alphaOnly.encoderStep {t : State} (ha : s.active = .encoder) (hx : encoderStep s = .next t) :
    ∃ t', encoderStep s' = .next t' ∧ alphaOnly t t' := by
  have hready : s'.byteSinkReady = s.byteSinkReady := by rw [h.2]
  unfold Machine.encoderStep at hx ⊢
  rw [h.issued_eq, hready]
  split at hx
  · split at hx
    · rw [if_pos ‹_›]
      exact h.exec ha hx
    · cases hx
      exact ⟨s', if_neg ‹_›, h⟩
  · exact h.extendRun hx

end

/-- Settles O27: the steps are those of the active encoder, and the relation lets no byte sent differ. -/
theorem alphaNeverReachesTheBytes : Obligations.AlphaNeverReachesTheBytes := by
  intro s s' t hin ha h hx
  have hin' : s'.inputs = [] := by rw [h.2, hin]
  have ha' : s'.active = .encoder := by rw [h.2, ha]
  rw [step_of_active_encoder hin ha] at hx
  rw [step_of_active_encoder hin' ha']
  obtain ⟨t', hx', ht⟩ := h.encoderStep ha hx
  exact ⟨t', hx', ht, by rw [ht.2]⟩

end Sys2Proof.Machine
end

section
/-! The fields of a tag byte as numbers (30_encoding R99, R102; 45 R248), and what is decoded of bytes that
stop short or do not match (45 R242, R243, R250, R252). -/

namespace Sys2Proof

/-! ### Fields as quotients and remainders -/

/-- The two-bit tag is the byte's quotient by 64. -/
theorem tag_eq_ofNat {t : Byte} {k : Nat} (hk : t.toNat / 64 = k) :
    t.extractLsb' 6 2 = BitVec.ofNat 2 k := by
  rw [BitVec.extractLsb', Nat.shiftRight_eq_div_pow]
  exact congrArg (BitVec.ofNat 2) hk

/-- What a field holds, from the byte as a number. -/
theorem unbiased_extractLsb' (start len : Nat) (bias : Int) (b : Byte) :
    unbiased bias (b.extractLsb' start len) = (b.toNat : Int) / 2 ^ start % 2 ^ len - bias := by
  rw [unbiased, BitVec.extractLsb'_toNat, Nat.shiftRight_eq_div_pow]
  push_cast
  rfl

/-- Settles O11: the ranges are the two-bit tag's, with the whole-byte tags FE and FF at the end of RUN's, and
each field is a quotient and a remainder of its byte. -/
theorem fieldsOfEveryTagByte : Obligations.FieldsOfEveryTagByte := by
  intro t u1 u2 u3 rest
  have hlt := t.isLt
  split_ifs with hindex hdiff hluma hrun hrgb
  · exact decodeOperation_index (tag_eq_ofNat (by omega)) _
  · rw [decode, decodeOperation_diff (tag_eq_ofNat (by omega)), unbiased_extractLsb',
      unbiased_extractLsb', unbiased_extractLsb']
    norm_num [biasDiff]
  · have hhigh : (u1.toNat : Int) / 16 % 16 = u1.toNat / 16 := by omega
    rw [decode, decodeOperation_luma (tag_eq_ofNat (by omega)), unbiased_extractLsb',
      unbiased_extractLsb', unbiased_extractLsb']
    norm_num [biasLumaG, biasLumaRB, hhigh]
  · obtain ⟨hne, hne'⟩ := ne_wholeByteTags_of_lt (t := t) (by omega)
    rw [decode, decodeOperation_run hne hne' (tag_eq_ofNat (by omega)), BitVec.extractLsb'_toNat]
    rfl
  · obtain rfl : t = tagRgb := BitVec.eq_of_toNat_eq hrgb
    rfl
  · have hres : t.toNat = 0xFF := by omega
    obtain rfl : t = tagReserved := BitVec.eq_of_toNat_eq hres
    rfl

/-! ### Bytes that stop short (45 R252) -/

theorem decodeMagic_of_short {bs : List Byte} (h : bs.length < 4) :
    decodeMagic bs = .error .truncated := by
  unfold decodeMagic
  split
  · simp only [List.length_cons] at h
    omega
  · rfl

theorem decodeHeaderFields_of_short {bs : List Byte} (h : bs.length < 10) :
    decodeHeaderFields bs = .error .truncated := by
  unfold decodeHeaderFields
  split
  · simp only [List.length_cons] at h
    omega
  · rfl

theorem decodeTrailer_of_short {bs : List Byte} (h : bs.length < 8) :
    decodeTrailer bs = .error .truncated := by
  unfold decodeTrailer
  split
  · simp only [List.length_cons] at h
    omega
  · rfl

/-- RGB's tag without its three channels. -/
theorem decodeOperation_rgb_of_short {rest : List Byte} (h : rest.length < 3) :
    decodeOperation (tagRgb :: rest) = .error .truncated := by
  simp only [decodeOperation, if_true]
  split
  · simp only [List.length_cons] at h
    omega
  · rfl

/-- LUMA's tag without its second byte. -/
theorem decodeOperation_luma_of_short {t : Byte} (htop : t.extractLsb' 6 2 = 0b10#2) :
    decodeOperation [t] = .error .truncated := by
  obtain ⟨hrgb, hres⟩ := ne_wholeByteTags (t := t) (by simp [htop])
  simp [decodeOperation, hrgb, hres, htop]

/-! ### Bytes that do not match (45 R242, R250) -/

/-- Any eight bytes other than the end marker, whatever follows them. -/
theorem decodeTrailer_of_ne {e : List Byte} (hlen : e.length = 8) (hne : e ≠ endMarkerBytes)
    (rest : List Byte) : decodeTrailer (e ++ rest) = .error .badEndMarker := by
  match e, hlen with
  | [_, _, _, _, _, _, _, _], _ => exact if_neg hne

end Sys2Proof
end

section
/-! The decoder's control (45 R240 to R252; 60 R303 to R308): START, the step at each phase on bytes that are
an element, match nothing or stop short, and the pending run. -/

namespace Sys2Proof.Machine

/-! ### START (45 R240, R241) -/

theorem startDecoder_of_idle {s : State} (hp : s.dec.phase = .idle) :
    startDecoder s = .next (decoderStart s) := if_pos hp

theorem startDecoder_of_busy {s : State} (hp : s.dec.phase ≠ .idle) : startDecoder s = .next s :=
  if_neg hp

/-- Settles O3: START lands as the step. -/
theorem decoderStartInitialisesThePass : Obligations.DecoderStartInitialisesThePass := by
  intro s rest hin
  have hstep : step s = startDecoder { s with inputs := rest } := step_of_input hin
  rw [hstep]
  exact ⟨fun hp => startDecoder_of_idle hp, fun hp => startDecoder_of_busy hp⟩

/-! ### The step on what is fetched -/

section
variable {s : State}

theorem step_of_active_decoder (hin : s.inputs = []) (ha : s.active = .decoder) :
    step s = decoderStep s := by
  simp only [step_of_no_input hin, blockStep, ha]

theorem step_of_phase_magic (hin : s.inputs = []) (ha : s.active = .decoder)
    (hp : s.dec.phase = .magic) : step s = magicStep s := by
  simp only [step_of_active_decoder hin ha, decoderStep, hp]

theorem magicStep_of_ok {rest : List Byte} (hd : decodeMagic s.byteSource = .ok rest) :
    magicStep s = .next (setDecPhase .header (takeBytes 4 s)) := by
  simp only [magicStep, hd, Config.magicLength]

theorem magicStep_of_error {e : DecodeError} (hd : decodeMagic s.byteSource = .error e) :
    magicStep s = fetchFault e s := by
  simp only [magicStep, hd]

/-- Bytes that are no element at the decoder's position are not executed. -/
theorem step_of_decode_error {p : Position} {e : DecodeError} (hin : s.inputs = [])
    (ha : s.active = .decoder) (hp : fetchPosition s.dec.phase = some p)
    (hpix : s.dec.phase = .pixels → s.dec.pixLeft ≠ 0 ∧ s.dec.run = 0)
    (hd : decode p s.byteSource = .error e) : step s = fetchFault e s := by
  rw [step_of_active_decoder hin ha, decoderStep_eq_fetchAndExec hp hpix]
  simp only [fetchAndExec, hd]

/-! ### The faults met while fetching (60 R302 to R304, R308) -/

theorem fetchFault_truncated_of_eos (heos : s.eos = true) :
    fetchFault .truncated s = .next (passFaulted 3 [] s) := if_pos heos

theorem fetchFault_truncated_of_not_eos (heos : s.eos = false) :
    fetchFault .truncated s = .next s := by
  simp only [fetchFault, heos, Bool.false_eq_true, if_false]

theorem fetchFault_badMagic (s : State) :
    fetchFault .badMagic s = .next (passFaulted 1 (s.byteSource.drop 4) s) := rfl

theorem fetchFault_badEndMarker (s : State) :
    fetchFault .badEndMarker s = .next (passFaulted 2 (s.byteSource.drop 8) s) := rfl

/-! ### Missing bytes (45 R252; 60 R304) -/

/-- Wherever bytes are missing, the step meets a truncated element. -/
theorem step_of_needsMoreBytes (hin : s.inputs = []) (ha : s.active = .decoder)
    (h : needsMoreBytes s) : step s = fetchFault .truncated s := by
  obtain ⟨hp, hlen⟩ | ⟨hp, hlen⟩ | ⟨hp, hlen⟩ | ⟨hp, hleft, hrun, hshort⟩ := h
  · rw [step_of_phase_magic hin ha hp]
    exact magicStep_of_error (decodeMagic_of_short hlen)
  · exact step_of_decode_error (p := .afterMagic) hin ha (by rw [hp]; rfl) (by simp [hp])
      (decodeHeaderFields_of_short hlen)
  · exact step_of_decode_error (p := .trailer) hin ha (by rw [hp]; rfl) (by simp [hp])
      (decodeTrailer_of_short hlen)
  · refine step_of_decode_error (p := .operation) hin ha (by rw [hp]; rfl) (fun _ => ⟨hleft, hrun⟩) ?_
    obtain hnone | ⟨t, _, hbs, hlo, hhi, rfl⟩ | ⟨rest, hbs, hlen⟩ := hshort
    · rw [hnone]
      rfl
    · rw [hbs]
      exact decodeOperation_luma_of_short (tag_eq_ofNat (by omega))
    · rw [hbs]
      exact decodeOperation_rgb_of_short hlen

end

/-- Settles O38: the element is truncated, and the end of the stream decides between the fault, which takes
what is left (log entry 9), and the wait (log entry 6). -/
theorem missingBytesTruncate : Obligations.MissingBytesTruncate := by
  intro s hin ha hneeds
  rw [step_of_needsMoreBytes hin ha hneeds]
  exact ⟨fetchFault_truncated_of_eos, fetchFault_truncated_of_not_eos⟩

/-- Settles O5: the decoder fetches at its position, and the element need not wait for the pixel sink. -/
theorem stepExecutesTheFetchedElement : Obligations.StepExecutesTheFetchedElement := by
  intro s p i rest hin ha hp hpix hready hd
  rw [step_of_active_decoder hin ha, decoderStep_eq_fetchAndExec hp hpix,
    fetchAndExec_of_decode hd hready]

/-! ### MAGIC (45 R242; 60 R302, R307) -/

theorem eq_magicBytes_iff {m0 m1 m2 m3 : Byte} :
    [m0, m1, m2, m3] = magicBytes ↔ m0 = 0x71 ∧ m1 = 0x6F ∧ m2 = 0x69 ∧ m3 = 0x66 := by
  simp [magicBytes]

/-- Settles O28: the four bytes are taken either way, and their comparison decides. -/
theorem magicIsCheckedAfterFourBytes : Obligations.MagicIsCheckedAfterFourBytes := by
  intro s hin ha hp
  refine ⟨fun m0 m1 m2 m3 rest hbs => ⟨fun hm => ?_, fun hm => ?_⟩, fun hlen => ?_⟩
  · have hd : decodeMagic s.byteSource = .ok rest := by
      rw [hbs]
      exact if_pos (eq_magicBytes_iff.mpr hm)
    rw [step_of_phase_magic hin ha hp, magicStep_of_ok hd, takeBytes, hbs]
    rfl
  · have hd : decodeMagic s.byteSource = .error .badMagic := by
      rw [hbs]
      exact if_neg (mt eq_magicBytes_iff.mp hm)
    rw [step_of_phase_magic hin ha hp, magicStep_of_error hd, fetchFault_badMagic, hbs]
    rfl
  · exact (missingBytesTruncate s hin ha (.inl ⟨hp, hlen⟩)).1

/-! ### HEADER (45 R243, R244; 60 R306) -/

theorem channelsOk_iff {c : Byte} : channelsOk c = true ↔ c = 3 ∨ c = 4 := by
  simp [channelsOk]

theorem pixelCount_eq_zero_iff (h : Header) :
    pixelCount h = 0 ↔ h.width.toNat * h.height.toNat = 0 := by
  rw [← pixelCount_toNat]
  exact (BitVec.toNat_inj (y := 0)).symm

/-- The register's product is the exact one, so it is 0 exactly at zero area. -/
theorem enterPixels_eq (h : Header) (s : State) :
    enterPixels h s = { s with dec := { s.dec with
      pixLeft := BitVec.ofNat 64 (h.width.toNat * h.height.toNat)
      phase := if h.width.toNat * h.height.toNat = 0 then .trailer else .pixels } } := by
  rw [enterPixels, if_congr (pixelCount_eq_zero_iff h) rfl rfl, pixelCount_eq_ofNat]

section
variable {s : State} {h : Header} (hp : s.dec.phase = .header)
include hp

theorem decoderHeader_of_channelsOk (hc : channelsOk h.channels = true) :
    decoderHeader h s = .next (enterPixels h (setHeader h (takeBytes 10 s))) :=
  (if_pos hp).trans (if_pos hc)

theorem decoderHeader_of_not_channelsOk (hc : ¬channelsOk h.channels = true) :
    decoderHeader h s = .next (raiseFault .badChannels (setHeader h (takeBytes 10 s))) :=
  (if_pos hp).trans (if_neg hc)

end

/-- Settles O29: the channel count decides between the pixels and BAD_CHANNELS, the header registers being
written in both. -/
theorem decoderParsesHeader : Obligations.DecoderParsesHeader := by
  intro s w h c cs ha hp
  rw [exec_header_of_decoder ha]
  refine ⟨fun hc => ?_, fun hc => ?_, fun hin hlen => ?_⟩
  · rw [decoderHeader_of_channelsOk hp (channelsOk_iff.mpr hc), enterPixels_eq]
    rfl
  · rw [decoderHeader_of_not_channelsOk hp (mt channelsOk_iff.mp hc)]
    rfl
  · exact (missingBytesTruncate s hin ha (.inr (.inl ⟨hp, hlen⟩))).1

/-! ### PIXELS with a run pending (45 R246) -/

/-- An iteration's updates, collected: the bytes taken, the run counter and the cache left, and the pixel. -/
theorem producePixel_eq_pixelGiven {s : State} (hp : s.dec.phase = .pixels) (n : Nat) (c : Rgb)
    (run : RunCount) (m : Memory) :
    producePixel c { takeBytes n s with dec := { s.dec with run := run, cache := m } } =
      pixelGiven n c run m s := by
  simp only [producePixel, pixelGiven, outPixel, isLast, decide_eq_true_eq, hp, takeBytes]

/-- A run counter that is not 0 counts down without wrapping. -/
theorem sub_one_eq_ofNat {run : RunCount} (hrun : run ≠ 0) :
    run - 1 = BitVec.ofNat 6 (run.toNat - 1) := by
  bv_omega

/-- Settles O31: the iteration that repeats the previous colour, with 0 bytes taken. -/
theorem pendingRunReadsNoByte : Obligations.PendingRunReadsNoByte := by
  intro s hin ha hp hleft hrun hready
  have hstep : step s = .next (runPending s) := by
    simp only [step_of_active_decoder hin ha, decoderStep, hp, pixelIteration, if_neg hleft,
      if_neg hrun, hready, if_true]
  rw [hstep, runPending, sub_one_eq_ofNat hrun, ← producePixel_eq_pixelGiven hp]
  rfl

/-! ### TRAILER (45 R250; 60 R303, R307) -/

theorem decoderEnd_of_trailer {s : State} (hp : s.dec.phase = .trailer) :
    decoderEnd s = .next (decoderDone true .none (takeBytes 8 s)) := if_pos hp

/-- Settles O37: the eight bytes are END or the fault BAD_END_MARKER, by their comparison. -/
theorem endMarkerIsCheckedByteForByte : Obligations.EndMarkerIsCheckedByteForByte := by
  intro s ha hp
  have hfetch : fetchPosition s.dec.phase = some .trailer := by
    rw [hp]
    rfl
  refine ⟨?_, fun e rest hin hlen hbs => ⟨fun he => ?_, fun he => ?_⟩, fun hin hlen => ?_⟩
  · rw [exec_endMarker_of_decoder ha, decoderEnd_of_trailer hp]
    rfl
  · have hd : decode .trailer s.byteSource = .ok (.endMarker, rest) := by
      rw [hbs, he]
      rfl
    exact stepExecutesTheFetchedElement s .trailer .endMarker rest hin ha hfetch (by simp [hp]) nofun hd
  · have hd : decode .trailer s.byteSource = .error .badEndMarker := by
      rw [hbs]
      exact decodeTrailer_of_ne hlen he rest
    rw [step_of_decode_error hin ha hfetch (by simp [hp]) hd, fetchFault_badEndMarker, hbs,
      List.drop_left' hlen]
  · exact (missingBytesTruncate s hin ha (.inr (.inr (.inl ⟨hp, hlen⟩)))).1

end Sys2Proof.Machine
end

section
/-! What a step of the decoder can do, said once; and with it what a step hands over (45 R249; 46 R276) and
how a pass becomes valid (45 R251). -/

namespace Sys2Proof.Machine

/-! ### The cases of a step -/

/-- The decoder's step from `s` to the last state: a wait (60 R315), the magic matched (45 R242), the element
at the decoder's position performed, a run-pending iteration (45 R246), or bytes that are no magic or no
element (45 R242, R250, R252). -/
inductive DecoderSteps (s : State) : State → Prop
  | wait : DecoderSteps s s
  | magic {rest : List Byte} (hp : s.dec.phase = .magic) (hd : decodeMagic s.byteSource = .ok rest) :
    DecoderSteps s (setDecPhase .header (takeBytes 4 s))
  | element {p : Position} {i : Instr} {rest : List Byte} {t : State}
    (hp : fetchPosition s.dec.phase = some p) (hd : decode p s.byteSource = .ok (i, rest))
    (hx : DecoderPerforms s i t) : DecoderSteps s t
  | pendingRun (hp : s.dec.phase = .pixels) (hleft : s.dec.pixLeft ≠ 0) (hrun : s.dec.run ≠ 0)
    (hready : s.pixSinkReady = true) : DecoderSteps s (runPending s)
  | noMagic {e : DecodeError} {t : State} (hp : s.dec.phase = .magic)
    (hd : decodeMagic s.byteSource = .error e) (hf : fetchFault e s = .next t) : DecoderSteps s t
  | noElement {p : Position} {e : DecodeError} {t : State} (hp : fetchPosition s.dec.phase = some p)
    (hd : decode p s.byteSource = .error e) (hf : fetchFault e s = .next t) : DecoderSteps s t

section
variable {s t : State} (ha : s.active = .decoder)
include ha

theorem fetchAndExec_steps {p : Position} (hp : fetchPosition s.dec.phase = some p)
    (h : fetchAndExec p s = .next t) : DecoderSteps s t := by
  obtain ⟨i, rest, hd, ⟨-, -, rfl⟩ | hx⟩ | ⟨e, hd, hf⟩ := fetchAndExec_next h
  · exact .wait
  · exact .element hp hd (exec_decoderPerforms ha hx)
  · exact .noElement hp hd hf

theorem decoderStep_steps (h : decoderStep s = .next t) : DecoderSteps s t := by
  obtain ⟨-, rfl⟩ | ⟨hp, hm⟩ | ⟨hp, hf⟩ | ⟨hp, hx⟩ | ⟨hp, hf⟩ := decoderStep_next h
  · exact .wait
  · obtain ⟨rest, hd, rfl⟩ | ⟨e, hd, hf⟩ := magicStep_next hm
    · exact .magic hp hd
    · exact .noMagic hp hd hf
  · exact fetchAndExec_steps ha (by rw [hp]; rfl) hf
  · obtain ⟨hleft, ⟨-, hf⟩ | ⟨hrun, hready, rfl⟩ | ⟨-, -, rfl⟩⟩ := pixelIteration_next hx
    · exact fetchAndExec_steps ha (by rw [hp]; rfl) hf
    · exact .pendingRun hp hleft hrun hready
    · exact .wait
  · exact fetchAndExec_steps ha (by rw [hp]; rfl) hf

end

/-! ### The pixel handed over (45 R249; 46 R276) -/

/-- From `s` to `t` the decoder hands over the one pixel `o`. -/
structure HandsOver (o : OutPixel) (s t : State) : Prop where
  pixSink : t.pixSink = s.pixSink ++ [o]
  portAlpha : o.data.extractLsb' 0 8 = 255
  fourChannels : s.dec.hdr.channels = 4 → o.alpha = some 255
  threeChannels : s.dec.hdr.channels = 3 → o.alpha = none
  colour : wordPixelRgb o.data = t.dec.prev.toRgb
  pixLeft : t.dec.pixLeft = s.dec.pixLeft - 1

theorem producePixel_handsOver {s : State} (halpha : s.dec.prev.a = 255) (c : Rgb) :
    HandsOver (outPixel s.dec.hdr.channels { c with a := s.dec.prev.a }) s (producePixel c s) where
  pixSink := rfl
  portAlpha := by simp [halpha]
  fourChannels := fun hc => by rw [hc, outPixel_alpha_four, halpha]
  threeChannels := fun hc => by rw [hc, outPixel_alpha_three]
  colour := by simp
  pixLeft := rfl

/-- An element hands over at most one pixel, and does so in the pixel phase only. -/
theorem DecoderPerforms.pixSink_eq_or_handsOver {s t : State} {i : Instr} (h : DecoderPerforms s i t)
    (halpha : s.dec.phase = .pixels → s.dec.prev.a = 255) :
    t.pixSink = s.pixSink ∨ ∃ o, HandsOver o s t := by
  cases h with
  | header | badHeader | reservedFf | endMarker => exact .inl rfl
  | index ht =>
    have hgiven := producePixel_handsOver (s := takeBytes 1 s) (halpha ht.phase)
    exact .inr ⟨_, { hgiven _ with }⟩
  | @literal _ n c _ ht =>
    have hgiven := producePixel_handsOver (s := decStore c (takeBytes n s)) (halpha ht.phase)
    exact .inr ⟨_, { hgiven _ with }⟩
  | @run n ht =>
    have hgiven := producePixel_handsOver (s := setDecRun (.ofNat 6 (n - 1)) (takeBytes 1 s))
      (halpha ht.phase)
    exact .inr ⟨_, { hgiven _ with }⟩

theorem fetchFault_pixSink {e : DecodeError} {s t : State} (h : fetchFault e s = .next t) :
    t.pixSink = s.pixSink := by
  obtain ⟨-, -, rfl⟩ | ⟨-, -, rfl⟩ | ⟨-, rfl⟩ | ⟨-, rfl⟩ := fetchFault_next h <;> rfl

/-- Settles O39: only an element in the pixel phase and the run-pending iteration hand over a pixel, and there
the alpha held constant is 255. -/
theorem decodedPixelsHaveAlpha255 : Obligations.DecodedPixelsHaveAlpha255 := by
  intro s t hs hin ha h
  have halpha : s.dec.phase = .pixels → s.dec.prev.a = 255 := fun hp => hs.alpha (by simp [hp])
  have hpixel : t.pixSink = s.pixSink ∨ ∃ o, HandsOver o s t := by
    cases decoderStep_steps ha (step_of_active_decoder hin ha ▸ h) with
    | wait | magic => exact .inl rfl
    | element _ _ hx => exact hx.pixSink_eq_or_handsOver halpha
    | pendingRun hp =>
      have hgiven := producePixel_handsOver (s := setDecRun (s.dec.run - 1) s) (halpha hp)
      exact .inr ⟨_, { hgiven _ with }⟩
    | noMagic _ _ hf | noElement _ _ hf => exact .inl (fetchFault_pixSink hf)
  obtain hsame | ⟨o, hsink, hport, hfour, hthree, hcolour, hleft⟩ := hpixel
  · exact .inl hsame
  · exact .inr ⟨o, hsink, hport, hfour, hthree, hcolour, hleft⟩

/-! ### How a pass becomes valid (45 R251) -/

/-- No move of the environment sets `valid`. -/
theorem valid_of_applyInput {e : Input} {s t : State} (h : applyInput e s = .next t)
    (ht : t.dec.valid = true) : s.dec.valid = true := by
  by_cases hreset : e = .reset
  · subst hreset
    cases h
    cases ht
  · by_cases hstart : e = .startDecoder
    · subst hstart
      obtain ⟨-, rfl⟩ | ⟨-, rfl⟩ := startDecoder_next h
      · cases ht
      · exact ht
    · rwa [← (applyInput_frame h).dec hreset hstart]

/-- Bytes that are no element do not set `valid`. -/
theorem valid_of_fetchFault {e : DecodeError} {s t : State} (h : fetchFault e s = .next t)
    (ht : t.dec.valid = true) : s.dec.valid = true := by
  obtain ⟨-, -, rfl⟩ | ⟨-, -, rfl⟩ | ⟨-, rfl⟩ | ⟨-, rfl⟩ := fetchFault_next h
  · exact ht
  all_goals cases ht

/-- Of the elements only END sets `valid`, and then it reports the pass as done without a fault. -/
theorem DecoderPerforms.valid {s t : State} {i : Instr} (h : DecoderPerforms s i t)
    (ht : t.dec.valid = true) :
    s.dec.valid = true ∨
      (i = .endMarker ∧ s.dec.phase = .trailer ∧ t.dec.fault = 0 ∧ t.dec.done = true) := by
  cases h with
  | header | index | literal | run => exact .inl ht
  | badHeader | reservedFf => cases ht
  | endMarker hp => exact .inr ⟨rfl, hp, rfl, rfl⟩

/-- An END that the trailer fetched is the whole end marker. -/
theorem take_of_decode_trailer {bs rest : List Byte} (h : decode .trailer bs = .ok (.endMarker, rest)) :
    bs.take 8 = [0, 0, 0, 0, 0, 0, 0, 1] := by
  rw [(decodeTrailer_ok h).bytes]
  rfl

/-- Settles O40: no move, no step of the encoder and no other case of the decoder's step sets `valid` than
END, which the trailer decodes from the marker's bytes alone. -/
theorem validOnlyThroughTheEndMarker : Obligations.ValidOnlyThroughTheEndMarker := by
  intro s t h hs ht
  have hnot : s.dec.valid ≠ true := by simp [hs]
  obtain ⟨e, rest, -, he⟩ | ⟨-, ha, hx⟩ | ⟨hin, ha, hx⟩ := step_cases h
  · exact absurd (valid_of_applyInput he ht) hnot
  · exact absurd ((encoderStep_onlyEncoderMoves ha hx).dec ▸ ht) hnot
  · cases decoderStep_steps ha hx with
    | wait | magic | pendingRun => exact absurd ht hnot
    | element hp hd hperf =>
      obtain hv | ⟨rfl, hph, hfault, hdone⟩ := hperf.valid ht
      · exact absurd hv hnot
      · rw [hph] at hp
        cases hp
        exact ⟨hin, ha, hph, take_of_decode_trailer hd, hfault, hdone⟩
    | noMagic _ _ hf | noElement _ _ hf => exact absurd (valid_of_fetchFault hf ht) hnot

end Sys2Proof.Machine
end

section
/-! The decoder's operations (46 R270 to R278; 60 R304, R305): the whole next state of each one that takes a
tag, and what a tag with too few bytes behind it does. -/

namespace Sys2Proof.Machine

/-! ### An iteration that takes a tag -/

section

variable {s : State} (ht : TakesTag s)

include ht

/-- An iteration is decided by the run counter and the cache that its update leaves. -/
theorem decoderIteration_of_takesTag {n : Nat} {u : State → State} {run : RunCount} {m : Memory} (c : Rgb)
    (hu : u (takeBytes n s) = { takeBytes n s with dec := { s.dec with run := run, cache := m } }) :
    decoderIteration n u c s = .next (pixelGiven n c run m s) := by
  rw [decoderIteration_of_enabled ht.phase ht.noRun ht.pixelsLeft, hu, producePixel_eq_pixelGiven ht.phase]

/-- The literal forms leave no run and store the colour they produce (46 R275). -/
theorem decoderLiteral_of_takesTag (n : Nat) (c : Rgb) :
    decoderLiteral n c s = .next (pixelGiven n c 0 (cacheStore s.dec.cache c) s) := by
  refine decoderIteration_of_takesTag ht c ?_
  rw [← ht.noRun]
  rfl

theorem decoderReserved_of_takesTag :
    decoderReserved s = .next (raiseFault .reservedTag (takeBytes 1 s)) :=
  (if_pos ⟨ht.phase, ht.noRun⟩).trans (if_neg ht.pixelsLeft)

end

/-- Settles O30: the update writes the run counter and not the cache. -/
theorem decoderRunsRun : Obligations.DecoderRunsRun := by
  intro s n ha hp hrun hleft _ _
  rw [exec_run_of_decoder ha]
  exact decoderIteration_of_takesTag ⟨hp, hrun, hleft⟩ _ rfl

/-- Settles O32: there is no update, so the run counter stays 0 and the cache as it was. -/
theorem decoderRunsIndex : Obligations.DecoderRunsIndex := by
  intro s slot ha hp hrun hleft
  rw [exec_index_of_decoder ha]
  refine decoderIteration_of_takesTag ⟨hp, hrun, hleft⟩ _ ?_
  rw [← hrun]
  rfl

/-- Settles O36: the fault's entry after the one byte, with no pixel produced (60 R308). -/
theorem decoderFaultsOnReservedTag : Obligations.DecoderFaultsOnReservedTag := by
  intro s ha hp hrun hleft
  rw [exec_reservedFf_of_decoder ha, decoderReserved_of_takesTag ⟨hp, hrun, hleft⟩]
  rfl

/-! ### The literal forms (46 R272 to R275, R278) -/

/-- The store with its slot written out (42 R180). -/
theorem cacheStore_eq (m : Memory) (c : Rgb) :
    cacheStore m c =
      writeCell m ((3 * c.r.toNat + 5 * c.g.toNat + 7 * c.b.toNat + 2805) % 64) (rgbWord c) := by
  rw [cacheStore, hashSlot_toNat]

theorem addDelta_toNat (c : Byte) (d : Int) : ((addDelta c d).toNat : Int) = (c.toNat + d) % 256 := by
  rw [addDelta, BitVec.toNat_ofInt]
  exact Int.toNat_of_nonneg (Int.emod_nonneg _ (by decide))

/-- Settles O33: RGB's colour is its three bytes, and with fewer behind the tag bytes are missing. -/
theorem decoderRunsRgb : Obligations.DecoderRunsRgb := by
  intro s r g b ha hp hrun hleft
  refine ⟨?_, fun rest hin heos hbs hlen => ?_⟩
  · rw [exec_rgb_of_decoder ha, decoderLiteral_of_takesTag ⟨hp, hrun, hleft⟩, cacheStore_eq]
  · have hshort : needsMoreBytes s := .inr (.inr (.inr ⟨hp, hleft, hrun, .inr (.inr ⟨rest, hbs, hlen⟩)⟩))
    exact (missingBytesTruncate s hin ha hshort).1 heos

/-- Settles O34: the colour is that of the three sums, which are exact modulo 256. -/
theorem decoderRunsDiff : Obligations.DecoderRunsDiff := by
  intro s dr dg db ha hp hrun hleft _
  refine ⟨diffColour s.dec.prev.toRgb dr dg db, addDelta_toNat .., addDelta_toNat .., addDelta_toNat .., ?_⟩
  rw [exec_diff_of_decoder ha, decoderLiteral_of_takesTag ⟨hp, hrun, hleft⟩, cacheStore_eq]

/-- Settles O35: the colour is that of the three sums, the relative deltas counted from the green one; a lone
tag of LUMA's range lacks its second byte. -/
theorem decoderRunsLuma : Obligations.DecoderRunsLuma := by
  intro s dg drg dbg ha hp hrun hleft _
  refine ⟨fun tag hin heos hbs hlo hhi => ?_,
    lumaColour s.dec.prev.toRgb dg drg dbg, addDelta_toNat .., ?_, ?_, ?_⟩
  · have hshort : needsMoreBytes s :=
      .inr (.inr (.inr ⟨hp, hleft, hrun, .inr (.inl ⟨tag, [], hbs, hlo, hhi, rfl⟩)⟩))
    exact (missingBytesTruncate s hin ha hshort).1 heos
  · rw [Int.add_assoc]
    exact addDelta_toNat ..
  · rw [Int.add_assoc]
    exact addDelta_toNat ..
  · rw [exec_luma_of_decoder ha, decoderLiteral_of_takesTag ⟨hp, hrun, hleft⟩, cacheStore_eq]

end Sys2Proof.Machine
end

section
/-! Runs of the machine: the steps chained, and the frame of a run of one block. -/

namespace Sys2Proof.Machine

/-- Some number of steps leads from the one state to the other. -/
def Reaches : State → State → Prop := Relation.ReflTransGen fun s t => step s = .next t

theorem Reaches.refl (s : State) : Reaches s s := Relation.ReflTransGen.refl

theorem Reaches.of_step {s t : State} (h : step s = .next t) : Reaches s t := Relation.ReflTransGen.single h

theorem Reaches.trans {s t u : State} (h : Reaches s t) (h' : Reaches t u) : Reaches s u :=
  Relation.ReflTransGen.trans h h'

theorem run_succ_of_step {s t : State} (h : step s = .next t) (k : Nat) :
    Sys2Proof.core.run (k + 1) s = Sys2Proof.core.run k t := by
  have hcore : Sys2Proof.core.step s = .next t := h
  simp only [Host.Core.run, hcore]

/-- A chain of steps is a run of the host's interface. -/
theorem Reaches.run {s t : State} (h : Reaches s t) : ∃ k, Sys2Proof.core.run k s = .next t := by
  induction h using Relation.ReflTransGen.head_induction_on with
  | refl => exact ⟨0, rfl⟩
  | head hstep _ ih =>
    obtain ⟨k, hk⟩ := ih
    exact ⟨k + 1, (run_succ_of_step hstep k).trans hk⟩

theorem OnlyEncoderMoves.trans {s t u : State} (h : OnlyEncoderMoves s t) (h' : OnlyEncoderMoves t u) :
    OnlyEncoderMoves s u where
  dec := h'.dec.trans h.dec
  byteSource := h'.byteSource.trans h.byteSource
  pixSink := h'.pixSink.trans h.pixSink
  byteSinkReady := h'.byteSinkReady.trans h.byteSinkReady
  eos := h'.eos.trans h.eos
  pixSinkReady := h'.pixSinkReady.trans h.pixSinkReady
  active := h'.active.trans h.active
  inputs := h'.inputs.trans h.inputs
  deltaWrap := h'.deltaWrap.trans h.deltaWrap

theorem OnlyDecoderMoves.trans {s t u : State} (h : OnlyDecoderMoves s t) (h' : OnlyDecoderMoves t u) :
    OnlyDecoderMoves s u where
  enc := h'.enc.trans h.enc
  pixSource := h'.pixSource.trans h.pixSource
  byteSink := h'.byteSink.trans h.byteSink
  byteSinkReady := h'.byteSinkReady.trans h.byteSinkReady
  eos := h'.eos.trans h.eos
  pixSinkReady := h'.pixSinkReady.trans h.pixSinkReady
  active := h'.active.trans h.active
  inputs := h'.inputs.trans h.inputs
  deltaWrap := h'.deltaWrap.trans h.deltaWrap

theorem Reaches.onlyEncoderMoves {s t : State} (h : Reaches s t) (hin : s.inputs = [])
    (ha : s.active = .encoder) : OnlyEncoderMoves s t := by
  induction h with
  | refl => exact .refl s
  | tail _ hstep ih =>
    rw [step_of_active_encoder (ih.inputs.trans hin) (ih.active.trans ha)] at hstep
    exact ih.trans (encoderStep_onlyEncoderMoves (ih.active.trans ha) hstep)

theorem Reaches.onlyDecoderMoves {s t : State} (h : Reaches s t) (hin : s.inputs = [])
    (ha : s.active = .decoder) : OnlyDecoderMoves s t := by
  induction h with
  | refl => exact .refl s
  | tail _ hstep ih =>
    rw [step_of_active_decoder (ih.inputs.trans hin) (ih.active.trans ha)] at hstep
    exact ih.trans (decoderStep_onlyDecoderMoves (ih.active.trans ha) hstep)

end Sys2Proof.Machine
end

section
/-! The decoder follows the encoder (46 R279): the relation between the encoder's registers and a decoder that has
read every byte sent so far, kept by what one pixel appends. -/

namespace Sys2Proof.Machine

/-! ### The pixels that are still to be handed over -/

/-- A pixel of colour `c` as the decoder hands it over, with the constant alpha (46 R276). -/
def handedOver (channels : Byte) (c : Rgb) : OutPixel := outPixel channels { c with a := 255 }

/-- The pixels of an image as the decoder hands them over. -/
def handedOverAll (channels : Byte) (ps : List PixelWord) : List OutPixel :=
  ps.map fun w => handedOver channels (wordPixelRgb w)

/-- What is still to be handed over: the previous colour as often as it is owed, then the pixels on offer. -/
def outstanding (channels : Byte) (prev : Rgb) (owed : Nat) (ps : List PixelWord) : List OutPixel :=
  List.replicate owed (handedOver channels prev) ++ handedOverAll channels ps

theorem outstanding_succ (channels : Byte) (prev : Rgb) (owed : Nat) (ps : List PixelWord) :
    outstanding channels prev (owed + 1) ps =
      handedOver channels prev :: outstanding channels prev owed ps := rfl

/-- A pixel that repeats the previous colour is owed once it is taken from the source (41 R161). -/
theorem outstanding_cons (channels : Byte) (w : PixelWord) (owed : Nat) (ps : List PixelWord) :
    outstanding channels (wordPixelRgb w) owed (w :: ps) =
      outstanding channels (wordPixelRgb w) (owed + 1) ps := by
  simp [outstanding, handedOverAll, List.replicate_succ']

/-! ### The relation -/

/-- The decoder's state `d`, with the bytes `bs` yet to come, follows the encoder's registers `e` with the pixels
`ps` still on offer. A pending run is owed to the pixel sink, by the run counter of either block; with what is
still on offer the sink will hold `image`. -/
structure Tracks (image : List OutPixel) (e : Encoder) (ps : List PixelWord) (bs : List Byte) (d : State) :
    Prop where
  active : d.active = .decoder
  inputs : d.inputs = []
  ready : d.pixSinkReady = true
  phase : d.dec.phase = if d.dec.pixLeft = 0 then .trailer else .pixels
  hdr : d.dec.hdr = e.cfg
  prev : d.dec.prev = { e.prev.toRgb with a := 255 }
  cache : d.dec.cache = e.cache
  bytes : d.byteSource = bs
  pixLeft : d.dec.pixLeft.toNat = d.dec.run.toNat + e.run.toNat + e.pixLeft.toNat
  pixels : d.pixSink ++ outstanding e.cfg.channels e.prev.toRgb (d.dec.run.toNat + e.run.toNat) ps = image

/-- The encoder's registers after the pixel `w`, by the run counter and the cache that it leaves. -/
def pixelLeaves (w : PixelWord) (run : RunCount) (m : Memory) (e : Encoder) : Encoder :=
  { e with
    prev := { wordPixelRgb w with a := if e.cfg.channels = 4 then w.extractLsb' 0 8 else 255 }
    run := run
    cache := m
    pixLeft := e.pixLeft - 1
    phase := if e.pixLeft = 1 then .trailer else .pixels }

theorem pixelTaken_enc (w : PixelWord) (ps : List PixelWord) (bs : List Byte) (run : RunCount) (m : Memory)
    (s : State) : (pixelTaken w ps bs run m s).enc = pixelLeaves w run m s.enc := rfl

theorem toNat_sub_one_add_one {n : Count} (h : n ≠ 0) : (n - 1).toNat + 1 = n.toNat := by
  bv_omega

section

variable {image : List OutPixel} {e : Encoder} {ps : List PixelWord} {bs : List Byte} {d : State}
  {w : PixelWord} {i : Instr}

theorem Tracks.pixLeft_ne_zero (h : Tracks image e ps bs d)
    (hmore : d.dec.run.toNat + e.run.toNat + e.pixLeft.toNat ≠ 0) : d.dec.pixLeft ≠ 0 :=
  BitVec.toNat_ne_iff_ne.mp (h.pixLeft ▸ hmore)

/-- While pixels are owed or on offer the decoder takes a tag once its own run is used up. -/
theorem Tracks.takesTag (h : Tracks image e ps bs d) (hrun : d.dec.run = 0)
    (hmore : e.run.toNat + e.pixLeft.toNat ≠ 0) : TakesTag d := by
  have hleft := h.pixLeft_ne_zero (by omega)
  exact ⟨h.phase.trans (if_neg hleft), hrun, hleft⟩

/-- A pixel handed over keeps the relation, if it is the first outstanding one and is counted. -/
theorem Tracks.pixelGiven (h : Tracks image e ps bs d) {e' : Encoder} {ps' : List PixelWord}
    (n : Nat) (run : RunCount) (hcfg : e'.cfg = e.cfg)
    (hcount : d.dec.run.toNat + e.run.toNat + e.pixLeft.toNat =
      run.toNat + e'.run.toNat + e'.pixLeft.toNat + 1)
    (hfirst : outstanding e.cfg.channels e.prev.toRgb (d.dec.run.toNat + e.run.toNat) ps =
      handedOver e.cfg.channels e'.prev.toRgb ::
        outstanding e.cfg.channels e'.prev.toRgb (run.toNat + e'.run.toNat) ps') :
    Tracks image e' ps' (bs.drop n) (pixelGiven n e'.prev.toRgb run e'.cache d) where
  active := h.active
  inputs := h.inputs
  ready := h.ready
  phase := if_congr sub_eq_zero.symm rfl rfl
  hdr := h.hdr.trans hcfg.symm
  prev := by simp [Machine.pixelGiven, h.prev]
  cache := rfl
  bytes := congrArg (List.drop n) h.bytes
  pixLeft := by
    have hpred := toNat_sub_one_add_one (h.pixLeft_ne_zero (by omega))
    exact Nat.add_right_cancel (hpred.trans (h.pixLeft.trans hcount))
  pixels := by
    have himage := h.pixels
    rw [hfirst] at himage
    simpa [Machine.pixelGiven, handedOver, outPixel, h.hdr, h.prev, hcfg] using himage

/-- The decoder's own run is handed over without a byte (45 R246). -/
theorem Tracks.drain (h : Tracks image e ps bs d) :
    ∃ d', Reaches d d' ∧ Tracks image e ps bs d' ∧ d'.dec.run = 0 := by
  induction hn : d.dec.run.toNat generalizing d with
  | zero => exact ⟨d, .refl d, h, BitVec.eq_of_toNat_eq hn⟩
  | succ n ih =>
    have hrun : d.dec.run ≠ 0 := fun hzero => by simp [hzero] at hn
    have hleft := h.pixLeft_ne_zero (by omega)
    have hn' : (BitVec.ofNat 6 (d.dec.run.toNat - 1)).toNat = n := by
      rw [BitVec.toNat_ofNat, hn]
      have := d.dec.run.isLt
      omega
    have hstep := pendingRunReadsNoByte d h.inputs h.active (h.phase.trans (if_neg hleft)) hleft hrun h.ready
    rw [h.prev, h.cache] at hstep
    have hgiven := h.pixelGiven (e' := e) (ps' := ps) 0 (BitVec.ofNat 6 (d.dec.run.toNat - 1)) rfl
      (by omega) (by rw [hn', hn, Nat.add_right_comm, outstanding_succ])
    obtain ⟨d', hreach, htracks, hzero⟩ := ih hgiven hn'
    exact ⟨d', (Reaches.of_step hstep).trans hreach, htracks, hzero⟩

/-- An operation's bytes at the head of the source are what the decoder executes. -/
theorem Tracks.step_eq (h : Tracks image e ps (encode i ++ bs) d) (ht : TakesTag d) (hwf : i.wf = true)
    (hpos : i.position = .operation) : step d = exec i d := by
  refine stepExecutesTheFetchedElement d .operation i bs h.inputs h.active (by rw [ht.phase]; rfl)
    (fun _ => ⟨ht.pixelsLeft, ht.noRun⟩) (fun _ => h.ready) ?_
  rw [h.bytes, ← hpos]
  exact decodeInvertsEncode i bs hwf

/-- RUN moves the run that is owed from the encoder's counter to the decoder's, but for the pixel it hands over
itself (46 R270). -/
theorem Tracks.run {n : Nat} (h : Tracks image e ps (encode (.run n) ++ bs) d) (hn : e.run.toNat = n)
    (hmin : 1 ≤ n) (hmax : n ≤ 62) : ∃ d', Reaches d d' ∧ Tracks image { e with run := 0 } ps bs d' := by
  obtain ⟨d₁, hreach, h₁, hrun⟩ := h.drain
  have ht : TakesTag d₁ := h₁.takesTag hrun (by omega)
  have hstep : step d₁ = _ :=
    (h₁.step_eq ht (wf_run_iff.mpr ⟨hmin, hmax⟩) rfl).trans
      (decoderRunsRun d₁ n h₁.active ht.phase hrun ht.pixelsLeft hmin hmax)
  rw [h₁.prev, h₁.cache] at hstep
  have hpending : e.run.toNat = (BitVec.ofNat 6 (n - 1)).toNat + 1 := by
    rw [BitVec.toNat_ofNat]
    omega
  have hgiven := h₁.pixelGiven (e' := { e with run := 0 }) (ps' := ps) 1 (BitVec.ofNat 6 (n - 1)) rfl
    (by rw [hrun, hpending]; simp [Nat.add_right_comm]) (by rw [← outstanding_succ, hrun, hpending]; simp)
  exact ⟨_, hreach.trans (.of_step hstep), hgiven⟩

/-- The RUN byte that a breaking pixel sends first, if it sends one (41 R163). -/
theorem Tracks.pendingRun (h : Tracks image e ps (pendingRun e.run ++ bs) d) (hmax : e.run.toNat ≤ 62) :
    ∃ d', Reaches d d' ∧ Tracks image { e with run := 0 } ps bs d' := by
  by_cases hrun : e.run = 0
  · rw [hrun] at h
    exact ⟨d, .refl d, by rw [← hrun]; exact h⟩
  · have hmin : 1 ≤ e.run.toNat := Nat.one_le_iff_ne_zero.mpr (BitVec.toNat_ne_iff_ne.mpr hrun)
    have hbytes : Machine.pendingRun e.run = encode (.run e.run.toNat) :=
      (if_neg hrun).trans (encode_run_eq (by omega)).symm
    exact Tracks.run (hbytes ▸ h) rfl hmin hmax

/-! ### The operations of a breaking pixel -/

/-- Up to the operation of a breaking pixel: nothing is owed any more, and a tag is taken. -/
theorem Tracks.beforeOperation (h : Tracks image e ps (Machine.pendingRun e.run ++ bs) d)
    (hmax : e.run.toNat ≤ 62) (hleft : e.pixLeft ≠ 0) :
    ∃ d', Reaches d d' ∧ Tracks image { e with run := 0 } ps bs d' ∧ TakesTag d' := by
  obtain ⟨d₁, hreach, h₁⟩ := h.pendingRun hmax
  obtain ⟨d₂, hreach', h₂, hrun⟩ := h₁.drain
  exact ⟨d₂, hreach.trans hreach', h₂, h₂.takesTag hrun (by simpa [BitVec.toNat_eq] using hleft)⟩

/-- The operation hands over the pixel that the encoder took from its source. -/
theorem Tracks.operation {m : Memory} (h : Tracks image { e with run := 0 } (w :: ps) (encode i ++ bs) d)
    (hleft : e.pixLeft ≠ 0) (hrun : d.dec.run = 0) :
    Tracks image (pixelLeaves w 0 m e) ps bs (Machine.pixelGiven (encode i).length (wordPixelRgb w) 0 m d) := by
  have hpred := toNat_sub_one_add_one hleft
  have hgiven := h.pixelGiven (e' := pixelLeaves w 0 m e) (ps' := ps) (encode i).length 0 rfl
    (by rw [hrun, ← hpred]; rfl) (by rw [hrun]; rfl)
  rwa [List.drop_left] at hgiven

/-- DIFF's sums undo its deltas (46 R273, R278). -/
theorem diffColour_deltas (wrap : Bool) (prev c : Rgb) :
    diffColour prev (deltas wrap prev c).dr (deltas wrap prev c).dg (deltas wrap prev c).db = c := by
  simp only [diffColour, deltas, addDelta_channelDelta]

/-- So do LUMA's, whose relative deltas are counted from the green one (46 R274, R278). -/
theorem lumaColour_deltas (wrap : Bool) (prev c : Rgb) :
    lumaColour prev (deltas wrap prev c).dg (deltas wrap prev c).drg (deltas wrap prev c).dbg = c := by
  simp only [lumaColour, Deltas.drg, Deltas.dbg, add_sub_cancel, deltas, addDelta_channelDelta]

/-- Each literal form leads the decoder from the previous colour to the new one, whichever the muxer selects
(43 R204; 46 R272 to R275). -/
theorem exec_literalOf_of_decoder (wrap : Bool) (c : Rgb) (ha : d.active = .decoder) (ht : TakesTag d) :
    exec (literalOf wrap d.dec.prev.toRgb c) d =
      .next (Machine.pixelGiven (encode (literalOf wrap d.dec.prev.toRgb c)).length c 0
        (cacheStore d.dec.cache c) d) := by
  by_cases hdiff : fitsDiff (deltas wrap d.dec.prev.toRgb c) = true
  · rw [literalOf_of_fitsDiff rfl hdiff, exec_diff_of_decoder ha, decoderLiteral_of_takesTag ht,
      diffColour_deltas]
    rfl
  · by_cases hluma : fitsLuma (deltas wrap d.dec.prev.toRgb c) = true
    · rw [literalOf_of_fitsLuma rfl hdiff hluma, exec_luma_of_decoder ha, decoderLiteral_of_takesTag ht,
        lumaColour_deltas]
      rfl
    · rw [literalOf_of_fits_neither rfl hdiff hluma, exec_rgb_of_decoder ha, decoderLiteral_of_takesTag ht]
      rfl

/-! ### One pixel -/

/-- A run within its bound is counted on without wrapping (41 R161, R165). -/
theorem toNat_ofNat_runLength {run : RunCount} (hrun : run.toNat ≤ 61) :
    (BitVec.ofNat 6 (runLength run)).toNat = run.toNat + 1 := by
  rw [BitVec.toNat_ofNat, runLength]
  omega

/-- A pixel that only extends the run sends nothing, and is owed (41 R161, R162). -/
theorem Tracks.extendRun (h : Tracks image e (w :: ps) bs d) (heq : wordPixelRgb w = e.prev.toRgb)
    (hrun : e.run.toNat ≤ 61) (hleft : e.pixLeft ≠ 0) :
    Tracks image (pixelLeaves w (BitVec.ofNat 6 (runLength e.run)) e.cache e) ps bs d where
  active := h.active
  inputs := h.inputs
  ready := h.ready
  phase := h.phase
  hdr := h.hdr
  prev := by simp [h.prev, pixelLeaves, heq]
  cache := h.cache
  bytes := h.bytes
  pixLeft := by
    have hpred := toNat_sub_one_add_one hleft
    have hcount := h.pixLeft
    simp only [pixelLeaves, toNat_ofNat_runLength hrun]
    omega
  pixels := by
    have himage := h.pixels
    rw [← heq, outstanding_cons] at himage
    rwa [pixelLeaves, toNat_ofNat_runLength hrun]

/-- The commuting step: what the encoder's pixel step appends leads the decoder from the registers before it to
the registers after it. -/
theorem Tracks.pixel {wrap : Bool} (hrun : e.run.toNat ≤ 61) (hleft : e.pixLeft ≠ 0)
    (h : Tracks image e (w :: ps) ((pixelOutput wrap e (wordPixelRgb w)).2.2 ++ bs) d) :
    ∃ d', Reaches d d' ∧
      Tracks image (pixelLeaves w (pixelOutput wrap e (wordPixelRgb w)).1
        (pixelOutput wrap e (wordPixelRgb w)).2.1 e) ps bs d' := by
  unfold pixelOutput at h ⊢
  split_ifs at h ⊢ with heq hflush hhit
  · exact (h.extendRun (of_decide_eq_true heq) hrun hleft).run (toNat_ofNat_runLength hrun)
      (Nat.succ_pos _) (Nat.succ_le_succ hrun)
  · exact ⟨d, .refl d, h.extendRun (of_decide_eq_true heq) hrun hleft⟩
  · rw [List.append_assoc] at h
    obtain ⟨d', hreach, h', ht⟩ := h.beforeOperation hrun.step hleft
    have hstep : step d' = _ :=
      (h'.step_eq ht rfl rfl).trans (decoderRunsIndex d' _ h'.active ht.phase ht.noRun ht.pixelsLeft)
    rw [h'.cache, of_decide_eq_true hhit] at hstep
    exact ⟨_, hreach.trans (.of_step hstep), h'.operation hleft ht.noRun⟩
  · rw [List.append_assoc] at h
    obtain ⟨d', hreach, h', ht⟩ := h.beforeOperation hrun.step hleft
    have hprev : d'.dec.prev.toRgb = e.prev.toRgb := by rw [h'.prev]
    have hstep : step d' = _ :=
      (h'.step_eq ht (wf_literalOf ..) (position_literalOf ..)).trans
        (hprev ▸ exec_literalOf_of_decoder wrap (wordPixelRgb w) h'.active ht)
    rw [h'.cache] at hstep
    exact ⟨_, hreach.trans (.of_step hstep), h'.operation hleft ht.noRun⟩

end

end Sys2Proof.Machine
end

section
/-! The two passes of a round trip (40 R130 to R138; 45 R240 to R250; 46 R279; 60 R300): the encoder's, with what a
decoder that reads its bytes does, and the decoder's. -/

namespace Sys2Proof.Machine

/-! ### The encoder's pass -/

/-- The encoder is in the middle of a pass that nothing holds up, with exactly the pixels `ps` to come. -/
structure Encoding (cfg : Header) (ps : List PixelWord) (s : State) : Prop where
  inputs : s.inputs = []
  active : s.active = .encoder
  ready : s.byteSinkReady = true
  inv : s.enc.Inv
  cfg : s.enc.cfg = cfg
  pixSource : s.pixSource = ps
  pixLeft : s.enc.pixLeft.toNat = ps.length
  phase : s.enc.phase = if s.enc.pixLeft = 0 then .trailer else .pixels

/-- The element HEADER of a configuration (30_encoding R91). -/
def headerOf (cfg : Header) : Instr := .header cfg.width cfg.height cfg.channels cfg.colorspace

/-- The state after START of the encoder and HEADER. -/
def headerSent (cfg : Header) (s : State) : State :=
  setEncPhase .pixels (sendBytes (encode (headerOf cfg)) (encoderStart cfg { s with inputs := [] }))

section

variable {cfg : Header} {ps : List PixelWord} {w : PixelWord} {s : State}

/-- HEADER is the encoder's step in its phase (40 R132). -/
theorem step_of_phase_header (hin : s.inputs = []) (ha : s.active = .encoder)
    (hready : s.byteSinkReady = true) (hp : s.enc.phase = .header) :
    step s = .next (setEncPhase .pixels (sendBytes (encode (headerOf s.enc.cfg)) s)) := by
  have hissued : issued s = some (headerOf s.enc.cfg) := by simp only [issued, hp, headerOf]
  exact (stepExecutesTheIssuedElement s _ hin ha hready hissued).trans
    (EncoderPerforms.exec_eq ha (.header hissued))

theorem reaches_headerSent (hin : s.inputs = [.startEncoder cfg]) (ha : s.active = .encoder)
    (hready : s.byteSinkReady = true) (hp : s.enc.phase = .idle) (hok : startOk cfg = true) :
    Reaches s (headerSent cfg s) := by
  have hstart : step s = .next (encoderStart cfg { s with inputs := [] }) :=
    (step_of_startEncoder hin).trans (startEncoder_of_ok (s := { s with inputs := [] }) hp hok)
  have hheader := step_of_phase_header (s := encoderStart cfg { s with inputs := [] }) rfl ha hready rfl
  exact (Reaches.of_step hstart).trans (.of_step hheader)

theorem encoding_headerSent (ha : s.active = .encoder) (hready : s.byteSinkReady = true)
    (hok : startOk cfg = true) (hsrc : s.pixSource = ps)
    (hlen : ps.length = cfg.width.toNat * cfg.height.toNat) : Encoding cfg ps (headerSent cfg s) := by
  have hinv := encoderStart_encInv hok { s with inputs := [] }
  exact {
    inputs := rfl
    active := ha
    ready := hready
    inv := setEncPhase_pixels_encInv (s := sendBytes _ (encoderStart cfg { s with inputs := [] })) hinv rfl
    cfg := rfl
    pixSource := hsrc
    pixLeft := (pixelCount_toNat cfg).trans hlen.symm
    phase := (if_neg (hinv.pixelsLeft (.inl rfl))).symm }

theorem Encoding.pixLeft_ne_zero (h : Encoding cfg (w :: ps) s) : s.enc.pixLeft ≠ 0 := by
  intro hzero
  have hcount := h.pixLeft
  simp [hzero] at hcount

/-- A pixel on offer is encoded by the next step. -/
theorem Encoding.step_pixel (h : Encoding cfg (w :: ps) s) :
    step s = .next (afterPixel w ps s) ∧ Encoding cfg ps (afterPixel w ps s) := by
  have hleft := h.pixLeft_ne_zero
  have hp : s.enc.phase = .pixels := h.phase.trans (if_neg hleft)
  have hstep := step_of_offeredPixel h.inputs h.active h.ready hp hleft h.pixSource
  have hpred := toNat_sub_one_add_one hleft
  have hcount := h.pixLeft
  rw [List.length_cons] at hcount
  exact ⟨hstep, {
    inputs := h.inputs
    active := h.active
    ready := h.ready
    inv := encoderStep_encInv h.active h.inv (step_of_active_encoder h.inputs h.active ▸ hstep)
    cfg := h.cfg
    pixSource := rfl
    pixLeft := Nat.add_right_cancel (hpred.trans hcount)
    phase := if_congr sub_eq_zero.symm rfl rfl }⟩

/-- From `s` to `t` the encoder appends `bs`, and a decoder that follows it at `s` reads them and follows it at
`t`. -/
structure Transmits (bs : List Byte) (s t : State) : Prop where
  reaches : Reaches s t
  byteSink : t.byteSink = s.byteSink ++ portBytes bs
  follows : ∀ (image : List OutPixel) (rest : List Byte) (d : State),
    Tracks image s.enc s.pixSource (bs ++ rest) d →
      ∃ d', Reaches d d' ∧ Tracks image t.enc t.pixSource rest d'

theorem Transmits.refl (s : State) : Transmits [] s s where
  reaches := .refl s
  byteSink := (List.append_nil _).symm
  follows := fun _ _ d h => ⟨d, .refl d, h⟩

theorem Transmits.trans {bs cs : List Byte} {t u : State} (h : Transmits bs s t) (h' : Transmits cs t u) :
    Transmits (bs ++ cs) s u where
  reaches := h.reaches.trans h'.reaches
  byteSink := by rw [h'.byteSink, h.byteSink, portBytes, portBytes, portBytes, List.map_append, List.append_assoc]
  follows := by
    intro image rest d hd
    rw [List.append_assoc] at hd
    obtain ⟨d₁, hreach, hd₁⟩ := h.follows image _ d hd
    obtain ⟨d₂, hreach', hd₂⟩ := h'.follows image rest d₁ hd₁
    exact ⟨d₂, hreach.trans hreach', hd₂⟩

theorem Encoding.transmits_pixel (h : Encoding cfg (w :: ps) s) :
    Transmits (pixelOutput s.deltaWrap s.enc (wordPixelRgb w)).2.2 s (afterPixel w ps s) where
  reaches := .of_step h.step_pixel.1
  byteSink := rfl
  follows := by
    intro image rest d hd
    rw [h.pixSource] at hd
    rw [afterPixel, pixelTaken_enc]
    exact Tracks.pixel h.inv.runBound h.pixLeft_ne_zero hd

/-- The pixels on offer are encoded one after the other. -/
theorem Encoding.transmits_pixels (h : Encoding cfg ps s) :
    ∃ bs t, Transmits bs s t ∧ Encoding cfg [] t := by
  induction ps generalizing s with
  | nil => exact ⟨[], s, .refl s, h⟩
  | cons w ps ih =>
    obtain ⟨bs, t, ht, hend⟩ := ih h.step_pixel.2
    exact ⟨_, t, h.transmits_pixel.trans ht, hend⟩

theorem Encoding.pixLeft_eq_zero (h : Encoding cfg [] s) : s.enc.pixLeft = 0 :=
  BitVec.eq_of_toNat_eq h.pixLeft

theorem Encoding.phase_trailer (h : Encoding cfg [] s) : s.enc.phase = .trailer :=
  h.phase.trans (if_pos h.pixLeft_eq_zero)

/-- With no pixel left the pass ends with the end marker (40 R137). -/
theorem Encoding.step_endMarker (h : Encoding cfg [] s) : step s = .next (encoderDone (sendEndMarker s)) := by
  have hissued : issued s = some .endMarker := by simp only [issued, h.phase_trailer]
  exact (stepExecutesTheIssuedElement s _ h.inputs h.active h.ready hissued).trans
    (EncoderPerforms.exec_eq h.active (.endMarker hissued))

end

/-! ### The decoder's pass -/

/-- The state after START of the decoder, the magic and HEADER. -/
def headerTaken (cfg : Header) (d : State) : State :=
  enterPixels cfg (setHeader cfg (takeBytes 10 (setDecPhase .header (takeBytes 4
    (decoderStart { d with inputs := [] })))))

section

variable {cfg : Header} {bs : List Byte} {d : State}

theorem step_of_magic (hin : d.inputs = []) (ha : d.active = .decoder) (hp : d.dec.phase = .magic)
    (hbs : d.byteSource = magicBytes ++ bs) : step d = .next (setDecPhase .header (takeBytes 4 d)) := by
  rw [step_of_phase_magic hin ha hp]
  exact magicStep_of_ok (hbs ▸ rfl : decodeMagic d.byteSource = .ok bs)

/-- The ten bytes after the magic are taken as the header that the encoder sent (45 R243). -/
theorem step_of_headerFields (hin : d.inputs = []) (ha : d.active = .decoder) (hp : d.dec.phase = .header)
    (hc : channelsOk cfg.channels = true)
    (hbs : magicBytes ++ d.byteSource = encode (headerOf cfg) ++ bs) :
    step d = .next (enterPixels cfg (setHeader cfg (takeBytes 10 d))) := by
  have hd : decode .afterMagic d.byteSource = .ok (headerOf cfg, bs) := by
    rw [← decode_start_magicBytes, hbs]
    exact decode_encode_header ..
  rw [stepExecutesTheFetchedElement d .afterMagic (headerOf cfg) bs hin ha (by rw [hp]; rfl) (by simp [hp])
    nofun hd, headerOf, exec_header_of_decoder ha]
  exact decoderHeader_of_channelsOk hp hc

theorem reaches_headerTaken (hin : d.inputs = [.startDecoder]) (ha : d.active = .decoder)
    (hp : d.dec.phase = .idle) (hc : channelsOk cfg.channels = true)
    (hbs : d.byteSource = encode (headerOf cfg) ++ bs) : Reaches d (headerTaken cfg d) := by
  have hstart : step d = .next (decoderStart { d with inputs := [] }) :=
    (step_of_input hin).trans (startDecoder_of_idle (s := { d with inputs := [] }) hp)
  have hmagic := step_of_magic (d := decoderStart { d with inputs := [] }) rfl ha rfl hbs
  have hheader := step_of_headerFields (bs := bs)
    (d := setDecPhase .header (takeBytes 4 (decoderStart { d with inputs := [] }))) rfl ha rfl hc
    (congrArg (fun cs => magicBytes ++ cs.drop 4) hbs)
  exact ((Reaches.of_step hstart).trans (.of_step hmagic)).trans (.of_step hheader)

/-- After the header both blocks stand at the first pixel, with the seed and an empty cache. -/
theorem tracks_headerTaken (ha : d.active = .decoder) (hready : d.pixSinkReady = true)
    (hbs : d.byteSource = encode (headerOf cfg) ++ bs) (hsink : d.pixSink = []) (s : State) :
    Tracks (handedOverAll cfg.channels s.pixSource) (headerSent cfg s).enc s.pixSource bs
      (headerTaken cfg d) where
  active := ha
  inputs := rfl
  ready := hready
  phase := rfl
  hdr := rfl
  prev := rfl
  cache := rfl
  bytes := by
    simp only [headerTaken, enterPixels_byteSource, setHeader_byteSource, takeBytes_byteSource,
      setDecPhase_byteSource, decoderStart_byteSource, hbs]
    rfl
  pixLeft := by simp [headerTaken, headerSent]
  pixels := congrArg (· ++ handedOverAll cfg.channels s.pixSource) hsink

/-- A valid pass of the decoder is over: it has taken every byte, its header and its cache are the encoder's, and
the pixel sink holds `image`. -/
structure Decoded (image : List OutPixel) (e : Encoder) (u : State) : Prop where
  done : u.dec.done = true
  valid : u.dec.valid = true
  hdr : u.dec.hdr = e.cfg
  byteSource : u.byteSource = []
  pixSink : u.pixSink = image
  cache : u.dec.cache = e.cache

/-- Once nothing is on offer and no run is pending, the end marker makes the pass valid (45 R250). -/
theorem Tracks.endMarker {image : List OutPixel} {e : Encoder} (h : Tracks image e [] endMarkerBytes d)
    (hrun : e.run = 0) (hleft : e.pixLeft = 0) : ∃ u, Reaches d u ∧ Decoded image e u := by
  obtain ⟨d', hreach, h', hrun'⟩ := h.drain
  have hnone : d'.dec.pixLeft = 0 := by
    apply BitVec.eq_of_toNat_eq
    rw [h'.pixLeft, hrun, hrun', hleft]
    rfl
  have hp : d'.dec.phase = .trailer := h'.phase.trans (if_pos hnone)
  have hd : decode .trailer d'.byteSource = .ok (.endMarker, []) := by
    rw [h'.bytes]
    rfl
  have hstep : step d' = .next (decoderDone true .none (takeBytes 8 d')) := by
    rw [stepExecutesTheFetchedElement d' .trailer .endMarker [] h'.inputs h'.active (by rw [hp]; rfl)
      (by simp [hp]) nofun hd, exec_endMarker_of_decoder h'.active, decoderEnd_of_trailer hp]
  have himage : d'.pixSink = image := by
    simpa [outstanding, handedOverAll, hrun, hrun'] using h'.pixels
  have hsource : d'.byteSource.drop 8 = [] := by
    rw [h'.bytes]
    rfl
  exact ⟨_, hreach.trans (.of_step hstep), rfl, rfl, h'.hdr, hsource, himage, h'.cache⟩

end

/-! ### The round trip -/

theorem handedOverAll_colours (channels : Byte) (ps : List PixelWord) :
    (handedOverAll channels ps).map (fun o => wordPixelRgb o.data) = ps.map wordPixelRgb := by
  simp [handedOverAll, handedOver]

theorem handedOverAll_alpha {channels : Byte} {ps : List PixelWord} {o : OutPixel}
    (h : o ∈ handedOverAll channels ps) :
    o.data.extractLsb' 0 8 = 255 ∧ o.alpha = if channels = 4 then some 255 else none := by
  obtain ⟨w, -, rfl⟩ := List.mem_map.mp h
  exact ⟨pixelWord_alpha _, rfl⟩

/-- The encoder is active with START and the pixels of an image before it, and an empty sink that takes bytes. -/
def withImage (cfg : Header) (pixels : List PixelWord) (s : State) : State :=
  { s with
    active := .encoder, inputs := [.startEncoder cfg], pixSource := pixels, byteSink := [],
    byteSinkReady := true }

/-- The decoder is active with START and the encoder's bytes before it, and an empty sink that takes pixels. -/
def withStream (t : State) : State :=
  { t with
    active := .decoder, inputs := [.startDecoder], byteSource := t.byteSink.map (fun b => b.data),
    pixSink := [], pixSinkReady := true }

section

variable {s t : State} {cfg : Header} {pixels : List PixelWord} {bs : List Byte}
  (ht : Transmits bs (headerSent cfg (withImage cfg pixels s)) t) (hend : Encoding cfg [] t)

include ht hend

theorem reaches_encoderDone :
    Reaches (headerSent cfg (withImage cfg pixels s)) (encoderDone (sendEndMarker t)) :=
  ht.reaches.trans (.of_step hend.step_endMarker)

omit hend in
/-- The bytes of the encoder's whole pass are the header, the operations and the end marker (30_encoding R90). -/
theorem byteSource_withStream :
    (withStream (encoderDone (sendEndMarker t))).byteSource =
      encode (headerOf cfg) ++ (bs ++ endMarkerBytes) := by
  have hsink : t.byteSink = portBytes (encode (headerOf cfg)) ++ portBytes bs := ht.byteSink
  simp [withStream, hsink, portBytes, Function.comp_def, endMarkerBytes]

/-- The decoder follows the encoder from the header to the end marker. -/
theorem decodes_withStream (hdp : s.dec.phase = .idle) (hok : startOk cfg = true) :
    ∃ u, Reaches (withStream (encoderDone (sendEndMarker t))) u ∧
      u.enc = (encoderDone (sendEndMarker t)).enc ∧ Decoded (handedOverAll cfg.channels pixels) t.enc u := by
  have hdec : (encoderDone (sendEndMarker t)).dec = s.dec :=
    ((reaches_encoderDone ht hend).onlyEncoderMoves rfl rfl).dec
  have hbytes := byteSource_withStream ht
  have hheader := reaches_headerTaken (d := withStream (encoderDone (sendEndMarker t))) rfl rfl
    ((congrArg Decoder.phase hdec).trans hdp) (channelsOk_iff.mpr (startOk_iff.mp hok).2) hbytes
  obtain ⟨d, hpixels, hd⟩ :=
    ht.follows _ _ _ (tracks_headerTaken rfl rfl hbytes rfl (withImage cfg pixels s))
  rw [hend.pixSource] at hd
  obtain ⟨u, hmarker, hu⟩ :=
    hd.endMarker (hend.inv.runFlushed (.inr hend.phase_trailer)) hend.pixLeft_eq_zero
  exact ⟨u, hheader.trans (hpixels.trans hmarker), ((hpixels.trans hmarker).onlyDecoderMoves rfl rfl).enc, hu⟩

end

/-- Settles O47: the encoder transmits the pixels one after the other, and the decoder follows it. -/
theorem decoderInvertsEncoder : Obligations.DecoderInvertsEncoder := by
  intro s cfg pixels hep hdp hok hlen
  obtain ⟨bs, t, ht, hend⟩ :=
    (encoding_headerSent (s := withImage cfg pixels s) rfl rfl hok rfl hlen).transmits_pixels
  obtain ⟨u, hdecoder, henc, hu⟩ := decodes_withStream ht hend hdp hok
  obtain ⟨m, hm⟩ := ((reaches_headerSent (s := withImage cfg pixels s) rfl rfl rfl hep hok).trans
    (reaches_encoderDone ht hend)).run
  obtain ⟨k, hk⟩ := hdecoder.run
  refine ⟨m, k, encoderDone (sendEndMarker t), u, hm, rfl, rfl, hend.pixSource, hk, hu.done, hu.valid,
    hu.hdr.trans hend.cfg, hu.byteSource, ?_, fun o ho => handedOverAll_alpha (hu.pixSink ▸ ho), ?_⟩
  · rw [hu.pixSink, handedOverAll_colours]
  · rw [hu.cache, henc]
    rfl

end Sys2Proof.Machine
end

section
/-! The five waits (60 R315): each as a step of its block to the same state (log entry 6). -/

namespace Sys2Proof.Machine

section
variable {s : State}

/-! ### The encoder's waits -/

theorem encoderStep_waits_of_idle (hp : s.enc.phase = .idle) : encoderStep s = .next s := by
  simp only [encoderStep, issued, extendRun, hp, reduceCtorEq, if_false]

/-- Without an offered pixel nothing is issued, and no run is extended. -/
theorem encoderStep_waits_of_no_pixel (hp : s.enc.phase = .pixels) (hsrc : s.pixSource = []) :
    encoderStep s = .next s := by
  have hoffered : offeredPixel s = none := by
    rw [offeredPixel, hsrc, List.head?_nil, Option.map_none]
  have hissued : issued s = none := by
    rw [issued_of_phase_pixels hp, hoffered]
    rfl
  simp only [encoderStep, hissued, extendRun, hp, if_true, hoffered]

theorem encoderStep_waits_of_sink_not_ready {i : Instr} (hi : issued s = some i)
    (hready : s.byteSinkReady = false) : encoderStep s = .next s := by
  simp only [encoderStep, hi, hready, Bool.false_eq_true, if_false]

/-! ### The decoder's waits -/

theorem decoderStep_waits_of_idle (hp : s.dec.phase = .idle) : decoderStep s = .next s := by
  simp only [decoderStep, hp]

/-- An element that produces a pixel is not executed before the pixel sink is ready. -/
theorem fetchAndExec_waits_of_sink_not_ready {p : Position} {i : Instr} {rest : List Byte}
    (hd : decode p s.byteSource = .ok (i, rest)) (hpx : producesPixel i = true)
    (hready : s.pixSinkReady = false) : fetchAndExec p s = .next s := by
  simp only [fetchAndExec, hd, hpx, hready, Bool.not_false, Bool.and_self, if_true]

theorem pixelIteration_of_pending_run (hleft : s.dec.pixLeft ≠ 0) (hrun : s.dec.run ≠ 0) :
    pixelIteration s = if s.pixSinkReady then .next (runPending s) else .next s := by
  simp only [pixelIteration, if_neg hleft, if_neg hrun]

/-- With the pixel sink not ready neither a pending run nor an element hands a pixel over. -/
theorem decoderStep_waits_of_sink_not_ready (hp : s.dec.phase = .pixels) (hleft : s.dec.pixLeft ≠ 0)
    (hready : s.pixSinkReady = false)
    (hpixel : s.dec.run ≠ 0 ∨
      ∃ i rest, decode .operation s.byteSource = .ok (i, rest) ∧ producesPixel i = true) :
    decoderStep s = .next s := by
  by_cases hrun : s.dec.run = 0
  · obtain hne | ⟨i, rest, hd, hpx⟩ := hpixel
    · exact absurd hrun hne
    · have hfetch : fetchPosition s.dec.phase = some .operation := by
        rw [hp]
        rfl
      rw [decoderStep_eq_fetchAndExec hfetch fun _ => ⟨hleft, hrun⟩]
      exact fetchAndExec_waits_of_sink_not_ready hd hpx hready
  · simp only [decoderStep, hp, pixelIteration_of_pending_run hleft hrun, hready, Bool.false_eq_true,
      if_false]

end

/-- Settles O4: with no move pending the step is the active block's, which waits in each of the five cases. -/
theorem waitingChangesNothing : Obligations.WaitingChangesNothing := by
  intro s hin
  have hencoder (ha : s.active = .encoder) (h : encoderStep s = .next s) : step s = .next s :=
    (step_of_active_encoder hin ha).trans h
  have hdecoder (ha : s.active = .decoder) (h : decoderStep s = .next s) : step s = .next s :=
    (step_of_active_decoder hin ha).trans h
  refine ⟨fun ha hp hsrc => ?_, fun ha hready ⟨i, hi⟩ => ?_, fun ha hneeds heos => ?_,
    fun ha hp hleft hready hpixel => ?_, fun ha hp => ?_, fun ha hp => ?_⟩
  · exact hencoder ha (encoderStep_waits_of_no_pixel hp hsrc)
  · exact hencoder ha (encoderStep_waits_of_sink_not_ready hi hready)
  · exact (missingBytesTruncate s hin ha hneeds).2 heos
  · exact hdecoder ha (decoderStep_waits_of_sink_not_ready hp hleft hready hpixel)
  · exact hencoder ha (encoderStep_waits_of_idle hp)
  · exact hdecoder ha (decoderStep_waits_of_idle hp)

end Sys2Proof.Machine
end

section
/-! Steps that complete (60 R300, R316; 45 R245; 60 R308): an element completes where its block issues or
fetches it, bytes that are no element never stop the machine, and so from a state that meets the invariant
only the encoder's START can be refused. -/

namespace Sys2Proof.Machine

/-! ### The encoder -/

section
variable {s : State}

/-- What the encoder issues it performs, if a pixel is left in its pixel phase. -/
theorem exec_completes_of_issued {i : Instr} (ha : s.active = .encoder)
    (hleft : s.enc.phase = .pixels → s.enc.pixLeft ≠ 0) (hi : issued s = some i) :
    ∃ t, exec i s = .next t := by
  obtain ⟨-, rfl⟩ | ⟨hp, p, hoffered, hm⟩ | ⟨-, rfl⟩ := issued_cases hi
  · exact ⟨_, (EncoderPerforms.header hi).exec_eq ha⟩
  · have hs : Selected s i p := ⟨hoffered, hi, hleft hp⟩
    obtain ⟨-, -, rfl⟩ | ⟨-, -, rfl⟩ | ⟨-, -, rfl⟩ := muxer_cases hm
    · exact ⟨_, (EncoderPerforms.run hs).exec_eq ha⟩
    · exact ⟨_, (EncoderPerforms.index hs).exec_eq ha⟩
    · exact ⟨_, (EncoderPerforms.literal (storesColour_literalOf ..) hs).exec_eq ha⟩
  · exact ⟨_, (EncoderPerforms.endMarker hi).exec_eq ha⟩

theorem extendRun_completes (hleft : s.enc.phase = .pixels → s.enc.pixLeft ≠ 0) :
    ∃ t, extendRun s = .next t := by
  unfold extendRun
  split
  · rename_i hp
    split
    · exact ⟨_, rfl⟩
    · exact ⟨_, if_neg (hleft hp)⟩
  · exact ⟨_, rfl⟩

theorem encoderStep_completes (ha : s.active = .encoder)
    (hleft : s.enc.phase = .pixels → s.enc.pixLeft ≠ 0) : ∃ t, encoderStep s = .next t := by
  unfold encoderStep
  split
  · rename_i i hi
    split
    · exact exec_completes_of_issued ha hleft hi
    · exact ⟨_, rfl⟩
  · exact extendRun_completes hleft

/-! ### The decoder's elements -/

variable {i : Instr} (ha : s.active = .decoder)
include ha

theorem exec_completes_of_header (hp : s.dec.phase = .header) (hi : i.position = .start) :
    ∃ t, exec i s = .next t := by
  cases i with
  | header w h c cs =>
    rw [exec_header_of_decoder ha]
    by_cases hc : channelsOk c = true
    · exact ⟨_, decoderHeader_of_channelsOk hp hc⟩
    · exact ⟨_, decoderHeader_of_not_channelsOk hp hc⟩
  | index | diff | luma | run | rgb | reservedFf | endMarker => cases hi

theorem exec_completes_of_takesTag (ht : TakesTag s) (hi : i.position = .operation) :
    ∃ t, exec i s = .next t := by
  cases i with
  | index slot =>
    rw [exec_index_of_decoder ha]
    exact ⟨_, decoderIteration_of_enabled ht.phase ht.noRun ht.pixelsLeft⟩
  | diff dr dg db =>
    rw [exec_diff_of_decoder ha]
    exact ⟨_, decoderLiteral_of_takesTag ht ..⟩
  | luma dg drg dbg =>
    rw [exec_luma_of_decoder ha]
    exact ⟨_, decoderLiteral_of_takesTag ht ..⟩
  | run n =>
    rw [exec_run_of_decoder ha]
    exact ⟨_, decoderIteration_of_enabled ht.phase ht.noRun ht.pixelsLeft⟩
  | rgb r g b =>
    rw [exec_rgb_of_decoder ha]
    exact ⟨_, decoderLiteral_of_takesTag ht ..⟩
  | reservedFf =>
    rw [exec_reservedFf_of_decoder ha]
    exact ⟨_, decoderReserved_of_takesTag ht⟩
  | header | endMarker => cases hi

theorem exec_completes_of_trailer (hp : s.dec.phase = .trailer) (hi : i.position = .trailer) :
    ∃ t, exec i s = .next t := by
  cases i with
  | endMarker =>
    rw [exec_endMarker_of_decoder ha]
    exact ⟨_, decoderEnd_of_trailer hp⟩
  | header | index | diff | luma | run | rgb | reservedFf => cases hi

end

/-! ### The decoder's steps -/

/-- Bytes that are no element end the pass or are waited for (60 R308, R315; log entries 6 and 19). -/
theorem fetchFault_completes (e : DecodeError) (s : State) : ∃ t, fetchFault e s = .next t := by
  cases e with
  | truncated =>
    cases heos : s.eos with
    | false => exact ⟨_, fetchFault_truncated_of_not_eos heos⟩
    | true => exact ⟨_, fetchFault_truncated_of_eos heos⟩
  | badMagic => exact ⟨_, fetchFault_badMagic s⟩
  | badEndMarker => exact ⟨_, fetchFault_badEndMarker s⟩

theorem magicStep_completes (s : State) : ∃ t, magicStep s = .next t := by
  cases hd : decodeMagic s.byteSource with
  | ok rest => exact ⟨_, magicStep_of_ok hd⟩
  | error e => exact magicStep_of_error hd ▸ fetchFault_completes e s

section
variable {s : State}

/-- A fetch completes if the element it may find does: the wait and the faults always complete. -/
theorem fetchAndExec_completes {p : Position}
    (hx : ∀ i rest, decode p s.byteSource = .ok (i, rest) → ∃ t, exec i s = .next t) :
    ∃ t, fetchAndExec p s = .next t := by
  unfold fetchAndExec
  split
  · rename_i i rest hd
    split
    · exact ⟨_, rfl⟩
    · exact hx i rest hd
  · exact fetchFault_completes ..

variable (ha : s.active = .decoder)
include ha

theorem pixelIteration_completes (hp : s.dec.phase = .pixels) (hleft : s.dec.pixLeft ≠ 0) :
    ∃ t, pixelIteration s = .next t := by
  by_cases hrun : s.dec.run = 0
  · rw [pixelIteration, if_neg hleft, if_pos hrun]
    exact fetchAndExec_completes fun i rest hd =>
      exec_completes_of_takesTag ha ⟨hp, hrun, hleft⟩ (decodeOperation_ok hd).position
  · rw [pixelIteration_of_pending_run hleft hrun]
    split <;> exact ⟨_, rfl⟩

theorem decoderStep_completes (hleft : s.dec.phase = .pixels → s.dec.pixLeft ≠ 0) :
    ∃ t, decoderStep s = .next t := by
  cases hp : s.dec.phase with
  | idle => exact ⟨_, decoderStep_waits_of_idle hp⟩
  | magic =>
    simp only [decoderStep, hp]
    exact magicStep_completes s
  | header =>
    simp only [decoderStep, hp]
    exact fetchAndExec_completes fun i rest hd =>
      exec_completes_of_header ha hp (decodeHeaderFields_ok hd).position
  | pixels =>
    simp only [decoderStep, hp]
    exact pixelIteration_completes ha hp (hleft hp)
  | trailer =>
    simp only [decoderStep, hp]
    exact fetchAndExec_completes fun i rest hd =>
      exec_completes_of_trailer ha hp (decodeTrailer_ok hd).position

end

/-! ### The environment and the machine -/

theorem startDecoder_completes (s : State) : ∃ t, startDecoder s = .next t := by
  by_cases hp : s.dec.phase = .idle
  · exact ⟨_, startDecoder_of_idle hp⟩
  · exact ⟨_, startDecoder_of_busy hp⟩

theorem startEncoder_completes {cfg : Header} {s : State}
    (hok : s.enc.phase = .idle → startOk cfg = true) : ∃ t, startEncoder cfg s = .next t := by
  by_cases hp : s.enc.phase = .idle
  · exact ⟨_, startEncoder_of_ok hp (hok hp)⟩
  · exact ⟨_, startEncoder_of_busy cfg hp⟩

/-- A move of the environment is refused only as the encoder's START (60 R316; log entry 10). -/
theorem applyInput_completes {e : Input} {s : State}
    (hok : ∀ cfg, e = .startEncoder cfg → s.enc.phase = .idle → startOk cfg = true) :
    ∃ t, applyInput e s = .next t := by
  cases e with
  | startEncoder cfg => exact startEncoder_completes (hok cfg rfl)
  | startDecoder => exact startDecoder_completes s
  | reset | offerPixel w | offerByte b | setEos l | setByteSinkReady l | setPixSinkReady l | select b =>
    exact ⟨_, rfl⟩

/-- Settles O46: a pending move completes by its precondition, and a block's step by the invariant, which leaves
a pixel in the pixel phase. -/
theorem invariantStatesStep : Obligations.InvariantStatesStep := by
  intro s hs hok
  cases hin : s.inputs with
  | cons e rest =>
    rw [step_of_input hin]
    exact applyInput_completes fun cfg he => hok cfg rest (he ▸ hin)
  | nil =>
    cases ha : s.active with
    | encoder =>
      rw [step_of_active_encoder hin ha]
      exact encoderStep_completes ha fun hp => hs.encoder.pixelsLeft (.inr hp)
    | decoder =>
      rw [step_of_active_decoder hin ha]
      exact decoderStep_completes ha hs.decoder.pixelsLeft

end Sys2Proof.Machine
end

section
/-! Hardware reset and the machine at rest (60 R340, R350, R315): what the two blocks report after reset, and
that nothing runs until START. -/

namespace Sys2Proof.Machine

/-! ### The blocks after reset (10_state R46) -/

theorem encoder_reset_reports :
    Encoder.reset.phase = .idle ∧ Encoder.reset.done = false ∧ Encoder.reset.ok = false :=
  ⟨rfl, rfl, rfl⟩

theorem decoder_reset_reports :
    Decoder.reset.phase = .idle ∧ Decoder.reset.done = false ∧ Decoder.reset.valid = false ∧
      Decoder.reset.fault = 0 ∧ Decoder.reset.hdrValid = false :=
  ⟨rfl, rfl, rfl, rfl, rfl⟩

/-! ### The two steps -/

theorem step_of_reset {s : State} {rest : List Input} (hin : s.inputs = .reset :: rest) :
    step s = .next (hardwareReset { s with inputs := rest }) := step_of_input hin

/-- With no move pending, whichever block comes next waits for its START. -/
theorem step_waits_of_idle {s : State} (hin : s.inputs = []) (henc : s.enc.phase = .idle)
    (hdec : s.dec.phase = .idle) : step s = .next s := by
  cases ha : s.active with
  | encoder => exact (step_of_active_encoder hin ha).trans (encoderStep_waits_of_idle henc)
  | decoder => exact (step_of_active_decoder hin ha).trans (decoderStep_waits_of_idle hdec)

/-- Settles O1: hardware reset gives both blocks their reset values and touches no stream, and a block in IDLE
has no step but its wait. -/
theorem hardwareResetLeavesIdle : Obligations.HardwareResetLeavesIdle := by
  obtain ⟨hencPhase, hencDone, hok⟩ := encoder_reset_reports
  obtain ⟨hdecPhase, hdecDone, hvalid, hfault, hhdr⟩ := decoder_reset_reports
  refine ⟨fun s rest hin => ⟨_, step_of_reset hin, ?_⟩, ?_, fun s => step_waits_of_idle⟩
  · exact ⟨hencPhase, hencDone, hok, hdecPhase, hdecDone, hvalid, hfault, hhdr, rfl, rfl, rfl, rfl, rfl⟩
  · exact ⟨hencPhase, hencDone, hok, hdecPhase, hdecDone, hvalid, hfault, hhdr⟩

end Sys2Proof.Machine
end
